-- ==== Sys2Proof/Word.lean ====
section
/-! DEFINITION. The plain data types of RSN-CORE: Bytes, Words, binary32 patterns (00_scope.md R11). -/

namespace Sys2Proof

/-- A Byte: an 8-bit unsigned value (R11). -/
abbrev Byte := BitVec 8

/-- A Word: a 16-bit unsigned value, never 32 bits (R11, R14). -/
abbrev Word := BitVec 16

/-- A 32-bit pattern: one float datum, or one numerator field of a measurement record (R121, R123). -/
abbrev Pattern := BitVec 32

/-- The 7-bit bus address (R8, R51). -/
abbrev BusAddress := BitVec 7

end Sys2Proof
end

