-- ==== Sys2Proof/Syntax.lean ====
section
/-! DEFINITION. The operations of RSN-CORE, one constructor per row of the opcode map (30_encoding.md R72),
with the operands of their request formats (R75 to R82). -/

namespace Sys2Proof

/-- The wire dialect (R3): what the D bit of FRAME_ENCODE and FRAME_DECODE selects (R71, R86). -/
inductive Dialect where
  | a
  | b
deriving DecidableEq, Repr, Inhabited

/-- The decode rule of the converter (R120): what the D bit of MEAS_DECODE selects (R71, R125). -/
inductive DecodeRule where
  | float
  | fixed
deriving DecidableEq, Repr, Inhabited

/-- The number of words a decode rule takes (R79, R120). -/
def DecodeRule.wordCount : DecodeRule → Nat
  | .float => 6
  | .fixed => 3

/-- One decoded host operation (R28, R70): the block's analogue of an instruction (R14). -/
inductive Instr where
  /-- CRC_COMPUTE, format P-SPAN (R75, R103). -/
  | crcCompute (data : List Byte)
  /-- CRC_VERIFY, format P-VERIFY (R76, R104). -/
  | crcVerify (data : List Byte) (c : Byte)
  /-- FRAME_ENCODE, format P-ENC (R77, R111). -/
  | frameEncode (d : Dialect) (cmd : Word) (payload : List Byte)
  /-- FRAME_DECODE, format P-DEC (R78, R113). -/
  | frameDecode (d : Dialect) (k : Byte) (raw : List Byte)
  /-- MEAS_DECODE, format P-MEAS (R79, R125). -/
  | measDecode (r : DecodeRule) (ws : List Word)
  /-- START_PERIODIC, format S-PAY (R81, R134). -/
  | startPeriodic (payload : List Byte)
  /-- STOP_PERIODIC, format S-NONE (R80, R135). -/
  | stopPeriodic
  /-- DATA_READY, format S-NONE (R80, R136). -/
  | dataReady
  /-- READ_MEASUREMENT, format S-NONE (R80, R137). -/
  | readMeasurement
  /-- SINGLE_SHOT, format S-NONE (R80, R138). -/
  | singleShot
  /-- FACTORY_RESET, format S-NONE (R80, R139). -/
  | factoryReset
  /-- STATUS, format S-NONE (R80, R165). -/
  | status
  /-- SET_ALTITUDE, format C-WORD (R82, R160). -/
  | setAltitude (w : Word)
  /-- GET_ALTITUDE, format S-NONE (R80, R161). -/
  | getAltitude
  /-- SET_TEMP_OFFSET, format C-WORD (R82, R162). -/
  | setTempOffset (w : Word)
  /-- GET_TEMP_OFFSET, format S-NONE (R80, R163). -/
  | getTempOffset
  /-- SET_AUTO_CAL, format C-WORD (R82, R164). -/
  | setAutoCal (w : Word)
deriving DecidableEq, Repr, Inhabited

end Sys2Proof
end

