-- ==== Sys2Proof/Config.lean ====
section
/-! DEFINITION. What an instance of RSN-CORE fixes at construction (00_scope.md R8, R9), the answers of the world
around it (20_memory.md R54, 10_state.md R30), and the free values: opaque constants that nothing can evaluate. -/

namespace Sys2Proof

/-- VARIANT (R3): the block's only option. -/
inductive Variant where
  | floatContinuous
  | fixedPointPeriodic
deriving DecidableEq, Repr, Inhabited

/-- WAIT_POLICY (R8). -/
inductive WaitPolicy where
  | blockInCall
  | hold
  | report
deriving DecidableEq, Repr, Inhabited

/-- The command names of the CMD table (R9). -/
inductive CmdName where
  | startPeriodic
  | stopPeriodic
  | readMeasurement
  | setTempOffset
  | setAltitude
  | setAutoCal
  | factoryReset
  | singleShot
  | dataReady
  | getTempOffset
  | getAltitude
deriving DecidableEq, Repr, Inhabited

/-- One variant's row of the CMD table (R8, R92): a 16-bit command word for each name, `none` for ABSENT. -/
structure CmdRow where
  startPeriodic : Option Word
  stopPeriodic : Option Word
  readMeasurement : Option Word
  setTempOffset : Option Word
  setAltitude : Option Word
  setAutoCal : Option Word
  factoryReset : Option Word
  singleShot : Option Word
  dataReady : Option Word
  getTempOffset : Option Word
  getAltitude : Option Word
deriving DecidableEq, Repr, Inhabited

/-- The CMD parameter (R8): a row for each variant. -/
structure CmdTable where
  floatContinuous : CmdRow
  fixedPointPeriodic : CmdRow
deriving DecidableEq, Repr, Inhabited

/-- The construction parameters of one instance (R8, R20). `tStart` to `tCmd` are the settling delays T_* in ms. -/
structure Params where
  variant : Variant
  addr : BusAddress
  cfgAlt : Word
  cfgToff : Word
  cfgAsc : Bool
  cmd : CmdTable
  tStart : Nat
  tStop : Nat
  tReset : Nat
  tSingle : Nat
  tCmd : Nat
  policy : WaitPolicy
deriving DecidableEq, Repr, Inhabited

/-- What the world around the block decides at one micro-step: how far the time source has advanced NOW since the
micro-step before (R27, R30), whether the platform asserts RESET (R192), and, at a WRITE or READ, how the transport
answers (R54): success or FAIL, and the Bytes a read delivers [DESIGN CHOICE, log entry 3; safe]. -/
structure Draw where
  delay : Nat
  reset : Bool
  ok : Bool
  bytes : List Byte
deriving DecidableEq, Repr, Inhabited

/-- VARIANT of the instance that `State.reset` stands for: an argument (R8). -/
opaque Config.variant : Variant
/-- ADDR of that instance: an argument (R8). -/
opaque Config.addr : BusAddress
/-- CFG_ALT of that instance: an argument (R8). -/
opaque Config.cfgAlt : Word
/-- CFG_TOFF of that instance: an argument (R8). -/
opaque Config.cfgToff : Word
/-- CFG_ASC of that instance: an argument (R8). -/
opaque Config.cfgAsc : Bool
/-- CMD of that instance: OPEN (R8, R92; 92_eei_decisions.md D11). -/
opaque Config.cmdTable : CmdTable
/-- T_CMD_MS of that instance: OPEN (R8; 92_eei_decisions.md D16). -/
opaque Config.tCmd : Nat

/-- The parameters of the instance that `State.reset` stands for. The four named delays and WAIT_POLICY are the
spec's defaults (R8); the rest are arguments, left free [DESIGN CHOICE, log entry 2; unsafe where a claim about this one
instance leans on a default]. -/
def Config.instanceParams : Params where
  variant := Config.variant
  addr := Config.addr
  cfgAlt := Config.cfgAlt
  cfgToff := Config.cfgToff
  cfgAsc := Config.cfgAsc
  cmd := Config.cmdTable
  tStart := 1
  tStop := 500
  tReset := 1200
  tSingle := 5000
  tCmd := Config.tCmd
  policy := .blockInCall

/-- The free draws of the bus, time and reset oracle (R54, R30, R192), by draw number. -/
opaque Config.environment : Nat → Draw

/-- A Byte of a bus read, by draw number and Byte index, where the draw itself names none (R54). -/
opaque Config.freeByte : Nat → Nat → Byte

/-- What CUR holds after a RESET: unspecified (R190). -/
opaque Config.requestAfterReset : Nat → Instr

/-- What TXBUF holds after a RESET: unspecified (R190). -/
opaque Config.txbufAfterReset : Nat → List Byte

/-- What RXBUF holds after a RESET: unspecified (R190). -/
opaque Config.rxbufAfterReset : Nat → List Byte

end Sys2Proof
end

