-- ==== Sys2Proof/Machine/Operands.lean ====
section
/-! DEFINITION. Operand assembly and byte order (20_memory.md R52; 30_encoding.md R71, R87; 00_scope.md R11):
every quantity is unsigned and big-endian, nothing is scaled. -/

namespace Sys2Proof.Machine

/-- `hi(w) = w[15:8]` (R11). -/
def hi (w : Word) : Byte := w.extractLsb' 8 8

/-- `lo(w) = w[7:0]` (R11). -/
def lo (w : Word) : Byte := w.extractLsb' 0 8

/-- `word(a, b) = a·256 + b` (R11). -/
def word (a b : Byte) : Word := a ++ b

/-- A Word as two Bytes, most significant first (R52). -/
def be16 (w : Word) : List Byte := [hi w, lo w]

/-- A 32-bit value as four Bytes, most significant first (R52, R123). -/
def be32 (v : Pattern) : List Byte :=
  [v.extractLsb' 24 8, v.extractLsb' 16 8, v.extractLsb' 8 8, v.extractLsb' 0 8]

/-- `be64(x)`: x[63:0] as eight Bytes, most significant first (R13, R165). -/
def be64 (x : Nat) : List Byte :=
  let v := BitVec.ofNat 64 x
  [v.extractLsb' 56 8, v.extractLsb' 48 8, v.extractLsb' 40 8, v.extractLsb' 32 8,
    v.extractLsb' 24 8, v.extractLsb' 16 8, v.extractLsb' 8 8, v.extractLsb' 0 8]

/-- The Bytes of a list of words, each big-endian (R87). -/
def wordBytes (ws : List Word) : List Byte := ws.flatMap be16

/-- The words of a Byte list, two Bytes each, high Byte first (R79). A last odd Byte makes no word. -/
def pairWords : List Byte → List Word
  | a :: b :: rest => word a b :: pairWords rest
  | _ => []

/-- The 16-bit length field M of a FRAME_ENCODE result (R87). -/
def lengthField (n : Nat) : List Byte := be16 (BitVec.ofNat 16 n)

/-- The dialect that a D bit names (R3, R71). -/
def dialectOfBit (d : Bool) : Dialect := if d then .b else .a

/-- The decode rule that a D bit names (R3, R71). -/
def ruleOfBit (d : Bool) : DecodeRule := if d then .fixed else .float

/-- DIALECT of an instance, derived from VARIANT (R20). -/
def dialectOf : Variant → Dialect
  | .floatContinuous => .a
  | .fixedPointPeriodic => .b

/-- The decode rule of an instance (R3, R120). -/
def ruleOf : Variant → DecodeRule
  | .floatContinuous => .float
  | .fixedPointPeriodic => .fixed

/-- The entry of a variant's row for a command name (R8). -/
def cmdOfRow (r : CmdRow) : CmdName → Option Word
  | .startPeriodic => r.startPeriodic
  | .stopPeriodic => r.stopPeriodic
  | .readMeasurement => r.readMeasurement
  | .setTempOffset => r.setTempOffset
  | .setAltitude => r.setAltitude
  | .setAutoCal => r.setAutoCal
  | .factoryReset => r.factoryReset
  | .singleShot => r.singleShot
  | .dataReady => r.dataReady
  | .getTempOffset => r.getTempOffset
  | .getAltitude => r.getAltitude

/-- `CMD(v, c)` (R8, R92): a command word, or `none` for ABSENT. -/
def cmdLookup (t : CmdTable) : Variant → CmdName → Option Word
  | .floatContinuous, c => cmdOfRow t.floatContinuous c
  | .fixedPointPeriodic, c => cmdOfRow t.fixedPointPeriodic c

/-- `CMD(VARIANT, c)` of an instance. -/
def commandWord (p : Params) (c : CmdName) : Option Word := cmdLookup p.cmd p.variant c

/-- The settling time T(c) of a command (R133). -/
def settling (p : Params) : CmdName → Nat
  | .startPeriodic => p.tStart
  | .stopPeriodic => p.tStop
  | .factoryReset => p.tReset
  | .singleShot => p.tSingle
  | .dataReady => p.tCmd
  | .readMeasurement => p.tCmd
  | .setAltitude => p.tCmd
  | .setTempOffset => p.tCmd
  | .setAutoCal => p.tCmd
  | .getAltitude => p.tCmd
  | .getTempOffset => p.tCmd

/-- The length of a command's response read, in words (R10). -/
def responseWords (v : Variant) : CmdName → Nat
  | .dataReady => 1
  | .getAltitude => 1
  | .getTempOffset => 1
  | .readMeasurement => (ruleOf v).wordCount
  | .startPeriodic => 0
  | .stopPeriodic => 0
  | .setTempOffset => 0
  | .setAltitude => 0
  | .setAutoCal => 0
  | .factoryReset => 0
  | .singleShot => 0

end Sys2Proof.Machine
end

