-- ==== Sys2Proof/Machine/State.lean ====
section
/-! DEFINITION. The state of RSN-CORE (10_state.md R20 to R35), its reset (70_reset_and_hazards.md R190), and the
reasons a step can stop. State is plain data. -/

namespace Sys2Proof.Machine

/-- SESSION (R24). The fourth 2-bit value is never held. -/
inductive Session where
  | stopped
  | periodicRunning
  | singleShotPending
deriving DecidableEq, Repr, Inhabited

/-- PHASE (R26). -/
inductive Phase where
  | idle
  | exec
deriving DecidableEq, Repr, Inhabited

/-- The errors an operation can raise (60_exceptions.md R170). -/
inductive ErrorKind where
  | busError
  | checksumError
  | protocolStateError
  | timingViolation
  | illegalOperation
deriving DecidableEq, Repr, Inhabited

/-- An error and its INFO Byte: the pseudocode's `err(E, info)` (00_scope.md R13). -/
structure Failure where
  kind : ErrorKind
  info : Byte
deriving DecidableEq, Repr, Inhabited

/-- A failure that a micro-step of the operation in execution met, and the STEP at which it did. -/
structure PendingFailure where
  failure : Failure
  atStep : Nat
deriving DecidableEq, Repr, Inhabited

/-- Which bus primitive (20_memory.md R54). -/
inductive BusKind where
  | write
  | read
deriving DecidableEq, Repr, Inhabited

/-- How a bus access ended: answered OK, answered FAIL (R54), or cut short by RESET (70_reset_and_hazards.md R192). -/
inductive BusEnd where
  | ok
  | fail
  | abandoned
deriving DecidableEq, Repr, Inhabited

/-- One bus access the block made: the address, the Byte count, the Bytes (a write's frame; what a successful read
delivered, else none), NOW at the access, and the READY_AT then in force [DESIGN CHOICE, log entry 10; safe]. -/
structure BusAccess where
  kind : BusKind
  addr : BusAddress
  len : Nat
  bytes : List Byte
  time : Nat
  deadline : Nat
  outcome : BusEnd
deriving DecidableEq, Repr, Inhabited

/-- What the host or the platform does next while the block is IDLE. A request has an opcode Byte: its length is at
least 1 (20_memory.md R50) [DESIGN CHOICE, log entry 9; safe]. -/
inductive Input where
  /-- The host presents a request frame (30_encoding.md R70): OP and the Bytes after it. -/
  | request (op : Byte) (rest : List Byte)
  /-- The platform asserts RESET (R190). -/
  | reset
  /-- Time passes before the host's next request (R200). -/
  | elapse (ms : Nat)
deriving DecidableEq, Repr, Inhabited

/-- The machine's state. The first eight fields are the spec's tuple (R22); `now` is the time source's NOW (R30);
`params` holds the construction parameters, which nothing writes (R20); the rest are the model's own. -/
structure State where
  /-- SESSION (R24). -/
  session : Session
  /-- READY_AT, ms (R25). -/
  readyAt : Nat
  /-- PHASE (R26). -/
  phase : Phase
  /-- STEP, the micro-step index (R27). -/
  stepIndex : Nat
  /-- CUR, the accepted operation (R28). -/
  cur : Instr
  /-- TXBUF (R29). -/
  txbuf : List Byte
  /-- RXBUF (R29). -/
  rxbuf : List Byte
  /-- RESP, empty when no response is pending (R31). -/
  resp : List Byte
  /-- NOW, ms (R30). -/
  now : Nat
  /-- The construction parameters (R8, R20). -/
  params : Params
  /-- Model: TXBUF has been written since RESET (93_implementation_defined.md I11). -/
  txWritten : Bool
  /-- Model: RXBUF has been written since RESET (I11). -/
  rxWritten : Bool
  /-- Model: the pseudocode's decoded words of the operation in execution. -/
  words : List Word
  /-- Model: the pseudocode's computed result of the operation in execution. -/
  data : List Byte
  /-- Model: the pseudocode's `err(E, info)` of the operation in execution. -/
  failed : Option PendingFailure
  /-- Model: what host and platform do next, first first. -/
  inputs : List Input
  /-- Model: the oracle's draws already fixed, next first; after them the free draws of Config. -/
  draws : List Draw
  /-- Model: the number of draws used, the index of the free values. -/
  drawn : Nat
  /-- Model: the bus accesses made, oldest first (70_reset_and_hazards.md R201). -/
  busLog : List BusAccess
  /-- Model: the responses the host took, oldest first (R201). -/
  taken : List (List Byte)
deriving DecidableEq, Repr

/-- Why the machine stops with a fault. -/
inductive Fault where
  /-- A micro-step reads TXBUF or RXBUF before it was written: `resume` raises it where the spec asks a model to
  signal a fault (10_state.md R29; 93_implementation_defined.md I11). No operation run from its ACCEPT meets it.
  Safe: the machine stops where the spec gives no value. -/
  | unwrittenBuffer
deriving DecidableEq, Repr

/-- Why the machine refuses. -/
inductive Refusal where
  /-- An operation without a meaning, raised by an arm of `exec` only; no arm does. Safe. -/
  | notModelled (mnemonic : String)
deriving DecidableEq, Repr

/-- A freshly constructed instance with given parameters: RESET's values (R190) and, where the spec says
'unspecified' or gives none, free values and the log's choices [DESIGN CHOICE, log entries
2, 3, 6, 7, 9; unsafe for NOW = 0]. -/
def State.initial (p : Params) : State where
  session := .stopped
  readyAt := 0
  phase := .idle
  stepIndex := 0
  cur := Config.requestAfterReset 0
  txbuf := (Config.txbufAfterReset 0).take 258
  rxbuf := (Config.rxbufAfterReset 0).take 18
  resp := []
  now := 0
  params := p
  txWritten := false
  rxWritten := false
  words := []
  data := []
  failed := none
  inputs := []
  draws := []
  drawn := 0
  busLog := []
  taken := []

/-- The machine right after reset (R190, R191). -/
def State.reset : State := State.initial Config.instanceParams

end Sys2Proof.Machine
end

