-- ==== Sys2Proof/Machine/Flags.lean ====
section
/-! DEFINITION. Condition codes. The block has no arithmetic flags: the response STATUS Byte is its only condition
code (10_state.md R32), with the INFO Byte of an error (30_encoding.md R84, R85); the ST Byte packs the status
fields that STATUS reads (10_state.md R33). -/

namespace Sys2Proof.Machine

/-- STATUS OK (R84). -/
def statusOk : Byte := 0x00
/-- STATUS ALREADY_RUNNING (R84, R176). -/
def statusAlreadyRunning : Byte := 0x01

/-- The STATUS code of an error (R84, R170). -/
def ErrorKind.code : ErrorKind → Byte
  | .busError => 0x80
  | .checksumError => 0x81
  | .protocolStateError => 0x82
  | .timingViolation => 0x83
  | .illegalOperation => 0xFF

/-- An error response `[STATUS, INFO]` (R84, R85). -/
def Failure.frame (f : Failure) : List Byte := [f.kind.code, f.info]

/-- INFO of a bus or checksum error: the transaction index in the high half, the phase in the low half (R85). -/
def transactionInfo (t phase : Nat) : Byte := BitVec.ofNat 8 (16 * t + phase)

/-- BUS_ERROR of the write of transaction t (R85). -/
def writeFailure (t : Nat) : Failure := { kind := .busError, info := transactionInfo t 1 }
/-- BUS_ERROR of the read of transaction t (R85). -/
def readFailure (t : Nat) : Failure := { kind := .busError, info := transactionInfo t 2 }
/-- CHECKSUM_ERROR of the response of transaction t (R85). -/
def checksumFailure (t : Nat) : Failure := { kind := .checksumError, info := transactionInfo t 0 }
/-- PROTOCOL_STATE_ERROR WRONG_STATE (R85, R173). -/
def wrongState : Failure := { kind := .protocolStateError, info := 0x01 }
/-- PROTOCOL_STATE_ERROR UNSUPPORTED (R85, R173). -/
def unsupported : Failure := { kind := .protocolStateError, info := 0x02 }
/-- TIMING_VIOLATION (R85, R174). -/
def timingViolation : Failure := { kind := .timingViolation, info := 0x00 }
/-- ILLEGAL_OPERATION for an opcode outside the map (R85, R175). -/
def illegalOpcodeFailure : Failure := { kind := .illegalOperation, info := 0x01 }
/-- ILLEGAL_OPERATION for a wrong length (R85, R175). -/
def malformedFailure : Failure := { kind := .illegalOperation, info := 0x02 }

/-- SESSION's encoding (R22). -/
def Session.code : Session → Byte
  | .stopped => 0
  | .periodicRunning => 1
  | .singleShotPending => 2

/-- VARIANT's encoding (R3). -/
def variantCode : Variant → Byte
  | .floatContinuous => 0
  | .fixedPointPeriodic => 1

/-- WAIT_POLICY's encoding (R8). -/
def policyCode : WaitPolicy → Byte
  | .blockInCall => 0
  | .hold => 1
  | .report => 2

/-- The ST Byte (R33, R165): SESSION in [1:0], VARIANT in [4], WAIT_POLICY in [6:5], BUSY in [7], which STATUS always
reads as 0. -/
def stByte (session : Session) (p : Params) : Byte :=
  session.code ||| (variantCode p.variant <<< 4) ||| (policyCode p.policy <<< 5)

/-- A 7-bit address as a Byte (R165). -/
def addressByte (a : BusAddress) : Byte := a.zeroExtend 8

/-- CFG_ASC as a Byte (R165). -/
def flagByte (b : Bool) : Byte := if b then 0x01 else 0x00

end Sys2Proof.Machine
end

