-- ==== Sys2Proof/Machine/Crc.lean ====
section
/-! DEFINITION. The CRC-8 validator's functions (40_crc.md R100, R101): polynomial 0x31, initial value 0xFF,
MSB-first, no reflection, no final XOR. -/

namespace Sys2Proof.Machine

/-- One bit step of R100: shift left, and exclusive-or with 0x31 if the top bit was set; eight bits are kept. -/
def crcBit (c : Byte) : Byte := if c.msb then (c <<< 1) ^^^ 0x31 else c <<< 1

/-- One data Byte of R100: brought in by exclusive-or, then eight bit steps. -/
def crcByte (c b : Byte) : Byte :=
  crcBit (crcBit (crcBit (crcBit (crcBit (crcBit (crcBit (crcBit (c ^^^ b))))))))

/-- The CRC of a Byte list from a given register value, Bytes in list order. -/
def crcFrom (c : Byte) (data : List Byte) : Byte := data.foldl crcByte c

/-- `crc8(data)` (R100). -/
def crc8 (data : List Byte) : Byte := crcFrom 0xFF data

/-- `verify(data, c)` (R101). -/
def verify (data : List Byte) (c : Byte) : Bool := crc8 data == c

end Sys2Proof.Machine
end

