-- ==== Sys2Proof/Machine/Framing.lean ====
section
/-! DEFINITION. The command frame codec's functions: outbound frames (30_encoding.md R90; 41_frame_codec.md R110)
and inbound responses (R91, R112). -/

namespace Sys2Proof.Machine

/-- The trailing CRC of an outbound frame: one Byte over the whole payload, in Dialect A and only when the payload is
not empty (R90, R110). -/
def frameTrailer : Dialect → List Byte → List Byte
  | .a, [] => []
  | .a, p => [crc8 p]
  | .b, _ => []

/-- `encode(dialect, CMD, P)` (R110). -/
def encodeFrame (d : Dialect) (cmd : Word) (p : List Byte) : List Byte :=
  be16 cmd ++ p ++ frameTrailer d p

/-- `decode_words(raw, K)` (R112): the K words of K groups `[hi, lo, crc]`, or FAIL if any group's CRC is wrong. Its
precondition is len(raw) = 3K; a list of any other length holds no K groups and fails too. -/
def decodeWords : List Byte → Nat → Option (List Word)
  | [], 0 => some []
  | a :: b :: c :: rest, k + 1 =>
    if verify [a, b] c then (decodeWords rest k).map (word a b :: ·) else none
  | _, _ => none

end Sys2Proof.Machine
end

