-- ==== Sys2Proof/Machine/Ops.lean ====
section
/-! DEFINITION. The shared operations of the sequencer: the environment's draws, RESET, ending an operation with a
response or an error, the bus primitives, the atomic micro-steps, and the round trip `Transact` built from them. -/

namespace Sys2Proof.Machine

/-! ### The environment -/

/-- The k-th draw from here on: one already fixed, else a free one, by draw number (20_memory.md R54). -/
def drawFrom (draws : List Draw) (drawn k : Nat) : Draw := draws.getD k (Config.environment (drawn + k))

/-- The k-th draw of a state from here on. -/
def State.drawAt (s : State) (k : Nat) : Draw := drawFrom s.draws s.drawn k

/-- The boundary before a micro-step: the time source advances NOW by any amount (R27, R30), one draw is used
[DESIGN CHOICE, log entry 4; safe]. -/
def State.tick (s : State) : State :=
  { s with
    now := s.now + (s.drawAt 0).delay
    draws := s.draws.drop 1
    drawn := s.drawn + 1 }

/-! ### RESET -/

/-- RESET (70_reset_and_hazards.md R190). CUR, TXBUF and RXBUF take free values
[DESIGN CHOICE, log entry 6; safe], the parameters and NOW stay. -/
def State.onReset (s : State) : State :=
  { s with
    session := .stopped
    readyAt := 0
    phase := .idle
    stepIndex := 0
    resp := []
    cur := Config.requestAfterReset (s.drawn + 1)
    txbuf := (Config.txbufAfterReset (s.drawn + 1)).take 258
    rxbuf := (Config.rxbufAfterReset (s.drawn + 1)).take 18
    txWritten := false
    rxWritten := false
    words := []
    data := []
    failed := none
    drawn := s.drawn + 1 }

/-! ### Beginning and ending an operation -/

/-- Accepting a request: PHASE <- EXEC, STEP <- 0, CUR <- the decoded request (10_state.md R26). -/
def State.begin (i : Instr) (s : State) : State :=
  { s with phase := .exec, stepIndex := 0, cur := i, words := [], data := [], failed := none }

/-- Writing RESP ends the operation: PHASE <- IDLE, STEP returns to 0 (R26, R27). -/
def State.respondWith (s : State) (frame : List Byte) : State :=
  { s with resp := frame, phase := .idle, stepIndex := 0, words := [], data := [], failed := none }

/-- `respond(data)` (00_scope.md R13): status OK and the result Bytes. -/
def State.respond (s : State) (data : List Byte) : State := s.respondWith (statusOk :: data)

/-- `raise E(info)` (00_scope.md R13): the block's one way to take an error. It saves nothing, enters no handler and
changes no mode (60_exceptions.md R178); there is no return from it, since the block is IDLE at once (R179). -/
def State.raise (s : State) (f : Failure) : State := s.respondWith f.frame

/-- A micro-step that completed: STEP advances by 1 (R27). -/
def State.advance (s : State) : State := { s with stepIndex := s.stepIndex + 1 }

/-- A micro-step that returned `err(E, info)` to the calling rule (43_session.md R131). -/
def State.failWith (s : State) (f : Failure) : State :=
  { s with failed := some { failure := f, atStep := s.stepIndex }, stepIndex := s.stepIndex + 1 }

/-! ### The bus port -/

/-- Records an access at the bus port, made to the instance's ADDR and no other (20_memory.md R51). -/
def State.logAccess (s : State) (kind : BusKind) (len : Nat) (bytes : List Byte) (outcome : BusEnd) : State :=
  { s with
    busLog := s.busLog ++
      [{ kind := kind, addr := s.params.addr, len := len, bytes := bytes, time := s.now,
         deadline := s.readyAt, outcome := outcome }] }

/-- The n Bytes a successful read delivers: the draw's, and free Bytes where it names none; exactly n (R54). -/
def readBytes (d : Draw) (index n : Nat) : List Byte :=
  (List.range n).map fun k => d.bytes.getD k (Config.freeByte index k)

/-- The WRITE micro-step (R27, R131): one BusWrite of TXBUF; on success READY_AT <- NOW + T(c) in the same
micro-step; on FAIL READY_AT is unchanged (R25). -/
def busWrite (c : CmdName) (t : Nat) (d : Draw) (s : State) : State :=
  if d.ok then
    { s.logAccess .write s.txbuf.length s.txbuf .ok with readyAt := s.now + settling s.params c }.advance
  else (s.logAccess .write s.txbuf.length s.txbuf .fail).failWith (writeFailure t)

/-- The READ micro-step (R27, R131): one BusRead of n Bytes into RXBUF. -/
def busRead (n t : Nat) (d : Draw) (s : State) : State :=
  if d.ok then
    { s.logAccess .read n (readBytes d s.drawn n) .ok with
      rxbuf := readBytes d s.drawn n, rxWritten := true }.advance
  else (s.logAccess .read n [] .fail).failWith (readFailure t)

/-! ### Micro-steps -/

/-- What ACCEPT does when `state_ok` fails (R130): START_PERIODIC reports, every other operation raises. -/
inductive WrongSession where
  | alreadyRunning
  | wrongState
deriving DecidableEq, Repr

/-- The atomic micro-steps (10_state.md R27) that the operations' rules are written in; which lines of the pseudocode
are one each is read from R27 [DEDUCED, log entry 8; unsafe for a claim about STEP inside an operation]. -/
inductive Act where
  /-- ACCEPT of a session or configuration operation (43_session.md R130): `needs(op)`, the sessions where
  `state_ok` holds, and what happens elsewhere. -/
  | accept (needs : List CmdName) (allowed : List Session) (elsewhere : WrongSession)
  /-- ACCEPT of a pure operation or STATUS: no check beyond the request's own (R130, 44_config_status.md R165). -/
  | acceptPure
  /-- COMPUTE: TXBUF <- encode(DIALECT, CMD(VARIANT, c), P) (R131). -/
  | loadFrame (c : CmdName) (payload : List Byte)
  /-- WAIT: `WaitUntil(READY_AT)` (R131, R132). -/
  | waitReady
  /-- WRITE: one BusWrite of TXBUF for command c in transaction t (R131). -/
  | write (c : CmdName) (t : Nat)
  /-- READ: one BusRead of n Bytes in transaction t (R131). -/
  | read (n t : Nat)
  /-- COMPUTE: decode_words of RXBUF, n words, in transaction t (R131). -/
  | decodeBuffer (n t : Nat)
  /-- COMPUTE: decode_words of an operand (41_frame_codec.md R113). -/
  | decodeOperand (raw : List Byte) (k : Nat)
  /-- COMPUTE: SESSION <- x (R134 to R139). -/
  | setSession (x : Session)
  /-- COMPUTE: a pure function of the state, kept as the result. -/
  | compute (f : State → List Byte)
  /-- RESPOND: `respond(...)` with a result made from the state (R13). -/
  | respond (f : State → List Byte)
  /-- RESPOND: `raise E(info)` of the failure met (R13). -/
  | raise

/-- ACCEPT's checks in the order of R130 and 60_exceptions.md R177, all at one NOW. An operation ended here has
written no state and made no bus access. -/
def acceptChecks (needs : List CmdName) (allowed : List Session) (elsewhere : WrongSession) (s : State) : State :=
  if needs.any fun c => (commandWord s.params c).isNone then s.raise unsupported
  else if s.session ∉ allowed then
    match elsewhere with
    | .alreadyRunning => s.respondWith [statusAlreadyRunning]
    | .wrongState => s.raise wrongState
  else if s.params.policy = .report ∧ s.now < s.readyAt then s.raise timingViolation
  else s.advance

/-- The outbound frame into TXBUF (R131). A command that is ABSENT is never encoded after ACCEPT; where a state is
placed here without it, the operation is UNSUPPORTED as R173 says [DEDUCED, log entry 11; safe]. -/
def loadFrame (c : CmdName) (payload : List Byte) (s : State) : State :=
  match commandWord s.params c with
  | some w => { s with txbuf := encodeFrame (dialectOf s.params.variant) w payload, txWritten := true }.advance
  | none => s.raise unsupported

/-- `WaitUntil(READY_AT)`: the hold ends at a boundary where NOW >= READY_AT; nothing else changes (R30, R131)
[DESIGN CHOICE, log entry 4; unsafe for a claim that the hold ends under a time source that stops]. -/
def waitReady (s : State) : State := { s with now := max s.now s.readyAt }.advance

/-- `decode_words`, its words kept, or the checksum failure of transaction t (R112, R131). -/
def decodeInto (raw : List Byte) (k t : Nat) (s : State) : State :=
  match decodeWords raw k with
  | some ws => { s with words := ws }.advance
  | none => s.failWith (checksumFailure t)

/-- The effect of a micro-step, given the world's draw for it. -/
def perform (a : Act) (d : Draw) (s : State) : State :=
  match a with
  | .accept needs allowed elsewhere => acceptChecks needs allowed elsewhere s
  | .acceptPure => s.advance
  | .loadFrame c payload => loadFrame c payload s
  | .waitReady => waitReady s
  | .write c t => busWrite c t d s
  | .read n t => busRead n t d s
  | .decodeBuffer n t => decodeInto s.rxbuf n t s
  | .decodeOperand raw k => decodeInto raw k 0 s
  | .setSession x => { s with session := x }.advance
  | .compute f => { s with data := f s }.advance
  | .respond f => s.respond (f s)
  | .raise =>
    match s.failed with
    | some f => s.raise f.failure
    | none => s.advance

/-- What a RESET inside a micro-step leaves on the bus: an access it cut short (R192). -/
def abandon (a : Act) (s : State) : State :=
  match a with
  | .write _ _ => s.logAccess .write s.txbuf.length s.txbuf .abandoned
  | .read n _ => s.logAccess .read n [] .abandoned
  | _ => s

/-- One micro-step: the boundary before it, then either RESET (R192) or its effect [DEDUCED, log entry 5;
unsafe for a claim about which Bytes of a cut access were sent]. -/
def runAct (a : Act) (s : State) : State :=
  if (s.drawAt 0).reset then (abandon a s.tick).onReset else perform a (s.drawAt 0) s.tick

/-! ### Sequences of micro-steps -/

/-- One line of an operation's rule: a micro-step, and the micro-steps the rule runs if it returns `err(E, info)`. -/
structure Line where
  act : Act
  onError : List Act

/-- A line that returns no error. -/
def line (a : Act) : Line := { act := a, onError := [] }

/-- What follows a micro-step: nothing if the operation has ended (PHASE = IDLE), else `next`. -/
def afterAct (next : State → State) (s : State) : State :=
  match s.phase with
  | .idle => s
  | .exec => next s

/-- Runs micro-steps in order until the operation ends. -/
def runActs : List Act → State → State
  | [], s => s
  | a :: rest, s => afterAct (runActs rest) (runAct a s)

/-- What follows a line: nothing if the operation has ended; after an error, the line's own micro-steps and no other
(60_exceptions.md R178); else `next`. -/
def afterLine (onError : List Act) (next : State → State) (s : State) : State :=
  match s.phase, s.failed with
  | .idle, _ => s
  | .exec, some _ => runActs onError s
  | .exec, none => next s

/-- Runs the lines of a rule in order until the operation ends. -/
def runLines : List Line → State → State
  | [], s => s
  | l :: rest, s => afterLine l.onError (runLines rest) (runAct l.act s)

/-- Runs an accepted operation from its first micro-step to its end [DEDUCED, log entry 1; safe]. -/
def operate (i : Instr) (rule : Params → List Line) (s : State) : Host.Outcome State Fault Refusal :=
  .next (runLines (rule s.params) (s.begin i))

/-- `Finish`'s wait (43_session.md R132): only under BLOCK_IN_CALL, after errors too (92_eei_decisions.md D40). -/
def finishActs (p : Params) : List Act :=
  match p.policy with
  | .blockInCall => [.waitReady]
  | .hold => []
  | .report => []

/-- `Finish; raise E(i)` of a session or configuration operation. -/
def finishError (p : Params) : List Act := finishActs p ++ [.raise]

/-- `Finish; respond(...)` of a session or configuration operation. -/
def finishOk (p : Params) (f : State → List Byte) : List Line := (finishActs p).map line ++ [line (.respond f)]

/-- The read half of `Transact` (R131): settling, one read of 3n Bytes, CRC check. -/
def transactRead (n t : Nat) (onError : List Act) : List Line :=
  [line .waitReady, { act := .read (3 * n) t, onError := onError }, { act := .decodeBuffer n t, onError := onError }]

/-- `Transact(c, P, n, t)` (R131), n being the command's response length (R10). `onError` is what the calling rule
does with an error. -/
def transact (p : Params) (c : CmdName) (payload : List Byte) (t : Nat) (onError : List Act) : List Line :=
  [line (.loadFrame c payload), line .waitReady, { act := .write c t, onError := onError }] ++
    match responseWords p.variant c with
    | 0 => []
    | n + 1 => transactRead (n + 1) t onError

/-- Every SESSION: `state_ok` is 'always' (R130). -/
def anySession : List Session := [.stopped, .periodicRunning, .singleShotPending]

/-- No result Bytes. -/
def noData (_ : State) : List Byte := []

/-- The computed result. -/
def computedData (s : State) : List Byte := s.data

/-- The decoded words as result Bytes. -/
def wordData (s : State) : List Byte := wordBytes s.words

end Sys2Proof.Machine
end

