-- ==== Sys2Proof/Machine/ConfigOps.lean ====
section
/-! DEFINITION. The configuration operations and STATUS (44_config_status.md R160 to R165). A setter sends a command
and writes no local setting; a getter always asks the device. -/

namespace Sys2Proof.Machine

/-- A setter's micro-steps (R160, R162, R164): one command with the raw word as its payload. -/
def setterRule (c : CmdName) (w : Word) (p : Params) : List Line :=
  line (.accept [c] anySession .wrongState) ::
    (transact p c (be16 w) 0 (finishError p) ++ finishOk p noData)

/-- A getter's micro-steps (R161, R163): one command and its one response word, returned raw. -/
def getterRule (c : CmdName) (p : Params) : List Line :=
  line (.accept [c] anySession .wrongState) ::
    (transact p c [] 0 (finishError p) ++ finishOk p wordData)

/-- SET_ALTITUDE (R160). -/
def ruleSetAltitude (w : Word) (p : Params) : List Line := setterRule .setAltitude w p
/-- SET_ALTITUDE (R160). -/
def execSetAltitude (w : Word) (s : State) : Host.Outcome State Fault Refusal :=
  operate (.setAltitude w) (ruleSetAltitude w) s

/-- GET_ALTITUDE's micro-steps (R161). -/
def ruleGetAltitude (p : Params) : List Line := getterRule .getAltitude p
/-- GET_ALTITUDE (R161). -/
def execGetAltitude (s : State) : Host.Outcome State Fault Refusal :=
  operate .getAltitude ruleGetAltitude s

/-- SET_TEMP_OFFSET's micro-steps (R162). -/
def ruleSetTempOffset (w : Word) (p : Params) : List Line := setterRule .setTempOffset w p
/-- SET_TEMP_OFFSET (R162). -/
def execSetTempOffset (w : Word) (s : State) : Host.Outcome State Fault Refusal :=
  operate (.setTempOffset w) (ruleSetTempOffset w) s

/-- GET_TEMP_OFFSET's micro-steps (R163). -/
def ruleGetTempOffset (p : Params) : List Line := getterRule .getTempOffset p
/-- GET_TEMP_OFFSET (R163). -/
def execGetTempOffset (s : State) : Host.Outcome State Fault Refusal :=
  operate .getTempOffset ruleGetTempOffset s

/-- SET_AUTO_CAL's micro-steps (R164): any word is sent. -/
def ruleSetAutoCal (w : Word) (p : Params) : List Line := setterRule .setAutoCal w p
/-- SET_AUTO_CAL (R164). -/
def execSetAutoCal (w : Word) (s : State) : Host.Outcome State Fault Refusal :=
  operate (.setAutoCal w) (ruleSetAutoCal w) s

/-- STATUS's 15 Bytes (R165): ST, READY_AT, ADDR, CFG_ALT, CFG_TOFF, CFG_ASC. -/
def statusData (s : State) : List Byte :=
  stByte s.session s.params :: (be64 s.readyAt ++ addressByte s.params.addr ::
    (be16 s.params.cfgAlt ++ be16 s.params.cfgToff ++ [flagByte s.params.cfgAsc]))

/-- STATUS's micro-steps (R165): no check, no bus access, no wait. -/
def ruleStatus (_ : Params) : List Line :=
  [line .acceptPure, line (.compute statusData), line (.respond computedData)]

/-- STATUS (R165). -/
def execStatus (s : State) : Host.Outcome State Fault Refusal :=
  operate .status ruleStatus s

end Sys2Proof.Machine
end

