-- ==== Sys2Proof/Machine/Measurement.lean ====
section
/-! DEFINITION. The measurement data-path converter's functions (42_measurement_decoder.md R120 to R124), and the
meaning its reader gives a record and a float pattern (R124, R126). -/

namespace Sys2Proof.Machine

/-- The denominator DEN (00_scope.md R8). -/
def den : Int := 65535

/-- A measurement (R121, R122): three binary32 patterns, or CO2 and two exact numerators over DEN. -/
inductive Meas where
  | floatMeas (co2 t h : Pattern)
  | fixedMeas (co2 : Word) (tNum hNum : Int)
deriving DecidableEq, Repr

/-- `T_NUM = 175·w1 − 45·65535` on mathematical integers (R122). -/
def tempNumerator (w : Word) : Int := 175 * (w.toNat : Int) - 45 * den

/-- `H_NUM = 100·w2` (R122). -/
def humNumerator (w : Word) : Int := 100 * (w.toNat : Int)

/-- `meas_decode(rule, words)` (R120 to R122). `none` only for a word count that the rule does not take, which no
request and no session read has (R120). -/
def measDecode : DecodeRule → List Word → Option Meas
  | .float, [u0, u1, u2, u3, u4, u5] => some (.floatMeas (u0 ++ u1) (u2 ++ u3) (u4 ++ u5))
  | .fixed, [w0, w1, w2] => some (.fixedMeas w0 (tempNumerator w1) (humNumerator w2))
  | _, _ => none

/-- The record MEAS (R123): KIND, then the fields, each big-endian. -/
def measRecord : Meas → List Byte
  | .floatMeas co2 t h => 0x00 :: (be32 co2 ++ be32 t ++ be32 h)
  | .fixedMeas co2 tNum hNum => 0x01 :: (be16 co2 ++ be32 (BitVec.ofInt 32 tNum) ++ be32 (BitVec.ofInt 32 hNum))

/-- The result Bytes of a conversion. A word count that the rule does not take has no record: no Bytes
[DESIGN CHOICE, log entry 13; safe, since nothing reaches it]. -/
def measData (r : DecodeRule) (ws : List Word) : List Byte :=
  match measDecode r ws with
  | some m => measRecord m
  | none => []

/-- A reader's numerators of a FixedMeas record (R124): CO2, T_NUM sign-extended, H_NUM zero-extended. -/
def readFixedRecord : List Byte → Option (Word × Int × Int)
  | [k, c1, c0, t3, t2, t1, t0, h3, h2, h1, h0] =>
    if k = 0x01 then
      some (word c1 c0, (t3 ++ t2 ++ t1 ++ t0 : Pattern).toInt, ((h3 ++ h2 ++ h1 ++ h0 : Pattern).toNat : Int))
    else none
  | _ => none

/-- The physical value of a numerator: the exact rational over DEN (R122, R124). -/
def physical (num : Int) : Rat := mkRat num 65535

/-- The value of a binary32 pattern (R126). -/
inductive FloatValue where
  | finite (negative : Bool) (magnitude : Rat)
  | infinite (negative : Bool)
  | nan
deriving DecidableEq, Repr

/-- `2^n` for an integer exponent, as an exact rational. -/
def powTwo : Int → Rat
  | .ofNat n => mkRat (2 ^ n) 1
  | .negSucc n => mkRat 1 (2 ^ (n + 1))

/-- The value IEEE 754 assigns to a binary32 pattern (R126). No rule of the block depends on it. -/
def floatValue (f : Pattern) : FloatValue :=
  let negative := f.getLsbD 31
  let e := (f.extractLsb' 23 8).toNat
  let frac := (f.extractLsb' 0 23).toNat
  if e = 255 then (if frac = 0 then .infinite negative else .nan)
  else if e = 0 then .finite negative (powTwo (-149) * mkRat frac 1)
  else .finite negative (powTwo ((e : Int) - 150) * mkRat (2 ^ 23 + frac) 1)

end Sys2Proof.Machine
end

