-- ==== Sys2Proof/Machine/PureOps.lean ====
section
/-! DEFINITION. The pure operations: CRC_COMPUTE, CRC_VERIFY (40_crc.md R103, R104), FRAME_ENCODE, FRAME_DECODE
(41_frame_codec.md R111, R113), MEAS_DECODE (42_measurement_decoder.md R125). They read no SESSION, VARIANT or
READY_AT and make no bus access (30_encoding.md R86). -/

namespace Sys2Proof.Machine

/-- A pure operation's rule: compute a result, then respond with it. -/
def pureRule (f : State → List Byte) : List Line :=
  [line .acceptPure, line (.compute f), line (.respond computedData)]

/-- CRC_COMPUTE's result (R103). -/
def crcComputeData (data : List Byte) : List Byte := [crc8 data]

/-- CRC_COMPUTE's micro-steps (R103). -/
def ruleCrcCompute (data : List Byte) (_ : Params) : List Line := pureRule fun _ => crcComputeData data

/-- CRC_COMPUTE (R103). -/
def execCrcCompute (data : List Byte) (s : State) : Host.Outcome State Fault Refusal :=
  operate (.crcCompute data) (ruleCrcCompute data) s

/-- CRC_VERIFY's result (R104): a mismatch is a result, not an error. -/
def crcVerifyData (data : List Byte) (c : Byte) : List Byte := [flagByte (verify data c)]

/-- CRC_VERIFY's micro-steps (R104). -/
def ruleCrcVerify (data : List Byte) (c : Byte) (_ : Params) : List Line := pureRule fun _ => crcVerifyData data c

/-- CRC_VERIFY (R104). -/
def execCrcVerify (data : List Byte) (c : Byte) (s : State) : Host.Outcome State Fault Refusal :=
  operate (.crcVerify data c) (ruleCrcVerify data c) s

/-- FRAME_ENCODE's result (R111): the frame's 16-bit length, then the frame. -/
def frameEncodeData (d : Dialect) (cmd : Word) (payload : List Byte) : List Byte :=
  lengthField (encodeFrame d cmd payload).length ++ encodeFrame d cmd payload

/-- FRAME_ENCODE's micro-steps (R111). -/
def ruleFrameEncode (d : Dialect) (cmd : Word) (payload : List Byte) (_ : Params) : List Line :=
  pureRule fun _ => frameEncodeData d cmd payload

/-- FRAME_ENCODE (R111). -/
def execFrameEncode (d : Dialect) (cmd : Word) (payload : List Byte) (s : State) :
    Host.Outcome State Fault Refusal :=
  operate (.frameEncode d cmd payload) (ruleFrameEncode d cmd payload) s

/-- FRAME_DECODE's result (R113): K, then the words. -/
def frameDecodeData (k : Byte) (s : State) : List Byte := k :: wordBytes s.words

/-- FRAME_DECODE's micro-steps (R113): the dialect does not change the result (R112), an error ends the operation at
once, with no settling wait. -/
def ruleFrameDecode (_ : Dialect) (k : Byte) (raw : List Byte) (_ : Params) : List Line :=
  [line .acceptPure, { act := .decodeOperand raw k.toNat, onError := [.raise] }, line (.respond (frameDecodeData k))]

/-- FRAME_DECODE (R113). -/
def execFrameDecode (d : Dialect) (k : Byte) (raw : List Byte) (s : State) : Host.Outcome State Fault Refusal :=
  operate (.frameDecode d k raw) (ruleFrameDecode d k raw) s

/-- MEAS_DECODE's micro-steps (R125): the rule is the D bit's, not VARIANT's (R86). -/
def ruleMeasDecode (r : DecodeRule) (ws : List Word) (_ : Params) : List Line := pureRule fun _ => measData r ws

/-- MEAS_DECODE (R125). -/
def execMeasDecode (r : DecodeRule) (ws : List Word) (s : State) : Host.Outcome State Fault Refusal :=
  operate (.measDecode r ws) (ruleMeasDecode r ws) s

end Sys2Proof.Machine
end

