-- ==== Sys2Proof/Machine/SessionOps.lean ====
section
/-! DEFINITION. The session operations (43_session.md R134 to R139), each the sequence of micro-steps its rule
gives. -/

namespace Sys2Proof.Machine

/-- START_PERIODIC's micro-steps (R134). -/
def ruleStartPeriodic (payload : List Byte) (p : Params) : List Line :=
  line (.accept [.startPeriodic] [.stopped] .alreadyRunning) ::
    (transact p .startPeriodic payload 0 (finishError p) ++
      line (.setSession .periodicRunning) :: finishOk p noData)

/-- START_PERIODIC (R134). -/
def execStartPeriodic (payload : List Byte) (s : State) : Host.Outcome State Fault Refusal :=
  operate (.startPeriodic payload) (ruleStartPeriodic payload) s

/-- STOP_PERIODIC's micro-steps (R135): the command is always sent. -/
def ruleStopPeriodic (p : Params) : List Line :=
  line (.accept [.stopPeriodic] anySession .wrongState) ::
    (transact p .stopPeriodic [] 0 (finishError p) ++ line (.setSession .stopped) :: finishOk p noData)

/-- STOP_PERIODIC (R135). -/
def execStopPeriodic (s : State) : Host.Outcome State Fault Refusal :=
  operate .stopPeriodic ruleStopPeriodic s

/-- Whether the one response word equals exactly 0x0001, as a result Byte (R136). -/
def readyData (s : State) : List Byte := [flagByte (s.words == [0x0001])]

/-- DATA_READY's micro-steps (R136). -/
def ruleDataReady (p : Params) : List Line :=
  line (.accept [.dataReady] [.periodicRunning] .wrongState) ::
    (transact p .dataReady [] 0 (finishError p) ++ line (.compute readyData) :: finishOk p computedData)

/-- DATA_READY (R136). -/
def execDataReady (s : State) : Host.Outcome State Fault Refusal :=
  operate .dataReady ruleDataReady s

/-- The measurement record of the decoded words by the instance's rule (R137, 42_measurement_decoder.md R120, R123). -/
def measurementData (s : State) : List Byte := measData (ruleOf s.params.variant) s.words

/-- READ_MEASUREMENT's micro-steps (R137): no prior DATA_READY is required. -/
def ruleReadMeasurement (p : Params) : List Line :=
  line (.accept [.readMeasurement] [.periodicRunning] .wrongState) ::
    (transact p .readMeasurement [] 0 (finishError p) ++
      line (.compute measurementData) :: finishOk p computedData)

/-- READ_MEASUREMENT (R137). -/
def execReadMeasurement (s : State) : Host.Outcome State Fault Refusal :=
  operate .readMeasurement ruleReadMeasurement s

/-- SINGLE_SHOT's micro-steps (R138): the second round trip's first WAIT is the fixed settling wait; once
SINGLE_SHOT_PENDING is entered the operation ends in STOPPED, success or not. -/
def ruleSingleShot (p : Params) : List Line :=
  line (.accept [.singleShot, .readMeasurement] [.stopped] .wrongState) ::
    (transact p .singleShot [] 0 (finishError p) ++
      line (.setSession .singleShotPending) ::
        (transact p .readMeasurement [] 1 (.setSession .stopped :: finishError p) ++
          line (.setSession .stopped) :: line (.compute measurementData) :: finishOk p computedData))

/-- SINGLE_SHOT (R138). -/
def execSingleShot (s : State) : Host.Outcome State Fault Refusal :=
  operate .singleShot ruleSingleShot s

/-- FACTORY_RESET's micro-steps (R139). -/
def ruleFactoryReset (p : Params) : List Line :=
  line (.accept [.factoryReset] anySession .wrongState) ::
    (transact p .factoryReset [] 0 (finishError p) ++ line (.setSession .stopped) :: finishOk p noData)

/-- FACTORY_RESET (R139). -/
def execFactoryReset (s : State) : Host.Outcome State Fault Refusal :=
  operate .factoryReset ruleFactoryReset s

end Sys2Proof.Machine
end

