-- ==== Sys2Proof/Machine/Dispatch.lean ====
section
/-! DEFINITION. The meaning of every operation, one arm per constructor. -/

namespace Sys2Proof.Machine

def exec (i : Instr) (s : State) : Host.Outcome State Fault Refusal :=
  match i with
  | .crcCompute data => Sys2Proof.Machine.execCrcCompute data s
  | .crcVerify data c => Sys2Proof.Machine.execCrcVerify data c s
  | .frameEncode d cmd payload => Sys2Proof.Machine.execFrameEncode d cmd payload s
  | .frameDecode d k raw => Sys2Proof.Machine.execFrameDecode d k raw s
  | .measDecode r ws => Sys2Proof.Machine.execMeasDecode r ws s
  | .startPeriodic payload => Sys2Proof.Machine.execStartPeriodic payload s
  | .stopPeriodic => Sys2Proof.Machine.execStopPeriodic s
  | .dataReady => Sys2Proof.Machine.execDataReady s
  | .readMeasurement => Sys2Proof.Machine.execReadMeasurement s
  | .singleShot => Sys2Proof.Machine.execSingleShot s
  | .factoryReset => Sys2Proof.Machine.execFactoryReset s
  | .status => Sys2Proof.Machine.execStatus s
  | .setAltitude w => Sys2Proof.Machine.execSetAltitude w s
  | .getAltitude => Sys2Proof.Machine.execGetAltitude s
  | .setTempOffset w => Sys2Proof.Machine.execSetTempOffset w s
  | .getTempOffset => Sys2Proof.Machine.execGetTempOffset s
  | .setAutoCal w => Sys2Proof.Machine.execSetAutoCal w s

end Sys2Proof.Machine
end

