-- ==== Sys2Proof/WellFormed.lean ====
section
/-! DEFINITION. Which terms of `Instr` a request frame can stand for: the bounds of the length fields N and K
(30_encoding.md R75 to R82; 92_eei_decisions.md D35) and the word count of MEAS_DECODE (R79). -/

namespace Sys2Proof

/-- A span, payload or data field whose length fits the Byte N (R75, R76, R77, R81). -/
def spanFits (data : List Byte) : Bool := data.length ≤ 255

/-- RAW holds exactly K groups of three Bytes (R78). -/
def groupsMatch (k : Byte) (raw : List Byte) : Bool := raw.length = 3 * k.toNat

/-- MEAS_DECODE holds exactly the words its rule takes (R79). -/
def wordsMatch (r : DecodeRule) (ws : List Word) : Bool := ws.length = r.wordCount

/-- The operations that some request frame encodes. -/
def Instr.wf : Instr → Bool
  | .crcCompute data => spanFits data
  | .crcVerify data _ => spanFits data
  | .frameEncode _ _ payload => spanFits payload
  | .frameDecode _ k raw => groupsMatch k raw
  | .measDecode r ws => wordsMatch r ws
  | .startPeriodic payload => spanFits payload
  | .stopPeriodic => true
  | .dataReady => true
  | .readMeasurement => true
  | .singleShot => true
  | .factoryReset => true
  | .status => true
  | .setAltitude _ => true
  | .getAltitude => true
  | .setTempOffset _ => true
  | .getTempOffset => true
  | .setAutoCal _ => true

end Sys2Proof
end

