-- ==== Sys2Proof/Decode.lean ====
section
/-! DEFINITION. Requests to operations and back: the opcode byte and map (30_encoding.md R71 to R73), the request
formats (R75 to R82), length determination (R83). Decoding is total on any Byte string and rejects by name. -/

namespace Sys2Proof

open Machine

/-- The legal opcode values of R72: a row of the map with its D bit. -/
inductive Opcode where
  | crcCompute
  | crcVerify
  | frameEncode (d : Dialect)
  | frameDecode (d : Dialect)
  | measDecode (r : DecodeRule)
  | startPeriodic
  | stopPeriodic
  | dataReady
  | readMeasurement
  | singleShot
  | factoryReset
  | status
  | setAltitude
  | getAltitude
  | setTempOffset
  | getTempOffset
  | setAutoCal
deriving DecidableEq, Repr

/-- Why a request is refused at ACCEPT (R73, R83, R175). -/
inductive BadRequest where
  /-- The opcode is not in the map: IllegalOperation(0x01) (R73). -/
  | illegalOpcode
  /-- The length is not the one the format gives: IllegalOperation(0x02) (R83). -/
  | malformedLength
deriving DecidableEq, Repr

/-- Field G, OP[7:5] (R71). -/
def opGroup (op : Byte) : BitVec 3 := op.extractLsb' 5 3
/-- Field D, OP[4] (R71). -/
def opDialect (op : Byte) : Bool := op.getLsbD 4
/-- Field F, OP[3:0] (R71). -/
def opFunction (op : Byte) : BitVec 4 := op.extractLsb' 0 4

/-- The opcode map (R72): `none` for an illegal opcode (R73). -/
def opcodeOf (op : Byte) : Option Opcode :=
  match (opGroup op).toNat, (opFunction op).toNat, opDialect op with
  | 0, 1, false => some .crcCompute
  | 0, 2, false => some .crcVerify
  | 0, 3, d => some (.frameEncode (dialectOfBit d))
  | 0, 4, d => some (.frameDecode (dialectOfBit d))
  | 0, 5, d => some (.measDecode (ruleOfBit d))
  | 1, 0, false => some .startPeriodic
  | 1, 1, false => some .stopPeriodic
  | 1, 2, false => some .dataReady
  | 1, 3, false => some .readMeasurement
  | 1, 4, false => some .singleShot
  | 1, 5, false => some .factoryReset
  | 1, 6, false => some .status
  | 2, 0, false => some .setAltitude
  | 2, 1, false => some .getAltitude
  | 2, 2, false => some .setTempOffset
  | 2, 3, false => some .getTempOffset
  | 2, 4, false => some .setAutoCal
  | _, _, _ => none

/-- Where a format finds a request's length (R83): nowhere but OP, in Byte 1, or in Byte 3. `none` if the frame is
too short to hold that Byte. The frame's first Byte is OP. -/
def frameLength (o : Opcode) (frame : List Byte) : Option Nat :=
  match o with
  | .crcCompute => frame[1]?.map fun n => n.toNat + 2
  | .crcVerify => frame[1]?.map fun n => n.toNat + 3
  | .frameEncode _ => frame[3]?.map fun n => n.toNat + 4
  | .frameDecode _ => frame[1]?.map fun k => 3 * k.toNat + 2
  | .measDecode r => some (2 * r.wordCount + 1)
  | .startPeriodic => frame[1]?.map fun n => n.toNat + 2
  | .setAltitude => some 3
  | .setTempOffset => some 3
  | .setAutoCal => some 3
  | .stopPeriodic => some 1
  | .dataReady => some 1
  | .readMeasurement => some 1
  | .singleShot => some 1
  | .factoryReset => some 1
  | .status => some 1
  | .getAltitude => some 1
  | .getTempOffset => some 1

/-- The operands of a request by its format (R75 to R82), from the Bytes after OP; `none` where their number is not
the one the format gives (R83). -/
def operandsOf : Opcode → List Byte → Option Instr
  | .crcCompute, n :: data => if data.length = n.toNat then some (.crcCompute data) else none
  | .crcVerify, n :: rest =>
    if rest.length = n.toNat + 1 then
      rest[n.toNat]?.map fun c => .crcVerify (rest.take n.toNat) c
    else none
  | .frameEncode d, h :: l :: n :: payload =>
    if payload.length = n.toNat then some (.frameEncode d (word h l) payload) else none
  | .frameDecode d, k :: raw => if raw.length = 3 * k.toNat then some (.frameDecode d k raw) else none
  | .measDecode r, bytes =>
    if bytes.length = 2 * r.wordCount then some (.measDecode r (pairWords bytes)) else none
  | .startPeriodic, n :: payload => if payload.length = n.toNat then some (.startPeriodic payload) else none
  | .stopPeriodic, [] => some .stopPeriodic
  | .dataReady, [] => some .dataReady
  | .readMeasurement, [] => some .readMeasurement
  | .singleShot, [] => some .singleShot
  | .factoryReset, [] => some .factoryReset
  | .status, [] => some .status
  | .setAltitude, [h, l] => some (.setAltitude (word h l))
  | .getAltitude, [] => some .getAltitude
  | .setTempOffset, [h, l] => some (.setTempOffset (word h l))
  | .getTempOffset, [] => some .getTempOffset
  | .setAutoCal, [h, l] => some (.setAutoCal (word h l))
  | _, _ => none

/-- Decodes a request: its opcode Byte and the Bytes after it. The opcode is checked before the length (R83, R177). -/
def decodeRequest (op : Byte) (rest : List Byte) : Except BadRequest Instr :=
  match opcodeOf op with
  | none => .error .illegalOpcode
  | some o =>
    match operandsOf o rest with
    | none => .error .malformedLength
    | some i => .ok i

/-- Decodes a Byte string. The empty string holds no opcode and no port presents it (R50: length 1 or more); the
model names it a malformed length [DESIGN CHOICE, log entry 12; safe]. -/
def decode : List Byte → Except BadRequest Instr
  | [] => .error .malformedLength
  | op :: rest => decodeRequest op rest

/-- The opcode row and D bit of an operation (R72). -/
def Instr.opcode : Instr → Opcode
  | .crcCompute _ => .crcCompute
  | .crcVerify _ _ => .crcVerify
  | .frameEncode d _ _ => .frameEncode d
  | .frameDecode d _ _ => .frameDecode d
  | .measDecode r _ => .measDecode r
  | .startPeriodic _ => .startPeriodic
  | .stopPeriodic => .stopPeriodic
  | .dataReady => .dataReady
  | .readMeasurement => .readMeasurement
  | .singleShot => .singleShot
  | .factoryReset => .factoryReset
  | .status => .status
  | .setAltitude _ => .setAltitude
  | .getAltitude => .getAltitude
  | .setTempOffset _ => .setTempOffset
  | .getTempOffset => .getTempOffset
  | .setAutoCal _ => .setAutoCal

/-- The opcode Byte of a row (R72), the values as the map prints them. -/
def Opcode.byte : Opcode → Byte
  | .crcCompute => 0x01
  | .crcVerify => 0x02
  | .frameEncode .a => 0x03
  | .frameEncode .b => 0x13
  | .frameDecode .a => 0x04
  | .frameDecode .b => 0x14
  | .measDecode .float => 0x05
  | .measDecode .fixed => 0x15
  | .startPeriodic => 0x20
  | .stopPeriodic => 0x21
  | .dataReady => 0x22
  | .readMeasurement => 0x23
  | .singleShot => 0x24
  | .factoryReset => 0x25
  | .status => 0x26
  | .setAltitude => 0x40
  | .getAltitude => 0x41
  | .setTempOffset => 0x42
  | .getTempOffset => 0x43
  | .setAutoCal => 0x44

/-- A length field N of a span (R75). -/
def lengthByte (data : List Byte) : Byte := BitVec.ofNat 8 data.length

/-- The Bytes after OP of an operation's request (R75 to R82). -/
def Instr.operandBytes : Instr → List Byte
  | .crcCompute data => lengthByte data :: data
  | .crcVerify data c => lengthByte data :: (data ++ [c])
  | .frameEncode _ cmd payload => be16 cmd ++ lengthByte payload :: payload
  | .frameDecode _ k raw => k :: raw
  | .measDecode _ ws => wordBytes ws
  | .startPeriodic payload => lengthByte payload :: payload
  | .stopPeriodic => []
  | .dataReady => []
  | .readMeasurement => []
  | .singleShot => []
  | .factoryReset => []
  | .status => []
  | .setAltitude w => be16 w
  | .getAltitude => []
  | .setTempOffset w => be16 w
  | .getTempOffset => []
  | .setAutoCal w => be16 w

/-- The request frame of an operation (R70, R75 to R82). -/
def encode (i : Instr) : List Byte := i.opcode.byte :: i.operandBytes

/-- The Bytes of an instruction given as a number, the first Byte its least significant eight bits. -/
def tableBytes : Nat → Nat → List Byte
  | 0, _ => []
  | n + 1, w => BitVec.ofNat 8 w :: tableBytes n (w / 256)

/-- The longest request, FRAME_DECODE with K = 255 (R50). -/
def longestRequest : Nat := 767

/-- The Bytes after OP of the request whose bits are w, every Byte above nbits zero, cut to the length its format
gives (R83). An illegal opcode gives no length: the Bytes stand as nbits counts them [DESIGN CHOICE, log entry 9; safe]. -/
def tableOperands (op : Byte) (nbits w : Nat) : List Byte :=
  let given := tableBytes (nbits / 8 - 1) (w / 256)
  match opcodeOf op with
  | none => given
  | some o =>
    let padded := given ++ List.replicate longestRequest 0
    match frameLength o (op :: padded) with
    | none => given
    | some n => padded.take (n - 1)

/-- The instruction the decoder reads from an instruction whose bits are w (R72, R83). -/
def decodeTableWord (nbits w : Nat) : Option Instr :=
  let op : Byte := BitVec.ofNat 8 w
  match decodeRequest op (tableOperands op nbits w) with
  | .ok i => some i
  | .error _ => none

end Sys2Proof
end

