-- ==== Sys2Proof/Machine/Port.lean ====
section
/-! DEFINITION. The request and response ports while the block is IDLE (30_encoding.md R70; 10_state.md R26, R31;
70_reset_and_hazards.md R190, R196), and the request that an opcode-table word stands for. -/

namespace Sys2Proof.Machine

/-- The error a refused request ends with at ACCEPT (60_exceptions.md R175). -/
def badRequestFailure : BadRequest → Failure
  | .illegalOpcode => illegalOpcodeFailure
  | .malformedLength => malformedFailure

/-- ACCEPT of an illegal or malformed request (30_encoding.md R73, R83): it raises and does nothing else. RESET may
occur at this micro-step too (R192) [DEDUCED, log entry 14; safe]. -/
def refuseRequest (e : BadRequest) (s : State) : State :=
  if (s.drawAt 0).reset then s.tick.onReset else s.tick.raise (badRequestFailure e)

/-- The host takes the response: taking it empties RESP (R31). -/
def takeResponse (s : State) : State := { s with taken := s.taken ++ [s.resp], resp := [] }

/-- The block waits for a request (R190): time passes, and RESET may be asserted. -/
def waitForRequest (s : State) : State := if (s.drawAt 0).reset then s.tick.onReset else s.tick

/-- The input list without its first entry. -/
def State.dropInput (s : State) : State := { s with inputs := s.inputs.tail }

/-- The platform asserts RESET while the block is IDLE (R190). -/
def resetIdle (s : State) : State := s.dropInput.onReset

/-- Time passes before the next request (R200). -/
def elapse (ms : Nat) (s : State) : State := { s.dropInput with now := s.now + ms }

/-- The host takes a response that is pending; with none pending it takes nothing (R31). -/
def takePending (s : State) : State :=
  match s.resp with
  | [] => s
  | _ :: _ => takeResponse s

/-- Presents the request that an opcode-table word stands for as the host's next move to an IDLE block, after the host
has taken a pending response. -/
def presentTableWord (nbits w : Nat) (s : State) : State :=
  { takePending s with
    phase := .idle
    inputs := .request (BitVec.ofNat 8 w) (tableOperands (BitVec.ofNat 8 w) nbits w) :: s.inputs }

end Sys2Proof.Machine
end

