-- ==== Sys2Proof/Machine/Sequencer.lean ====
section
/-! DEFINITION. The block sequencer in the middle of an operation (10_state.md R27): the micro-step that CUR and STEP
name, and one step of it. `exec` runs the same micro-steps from ACCEPT to the operation's end. -/

namespace Sys2Proof.Machine

/-- The micro-steps of an operation, by its rule in 40_crc.md to 44_config_status.md. -/
def ruleOfInstr : Instr → Params → List Line
  | .crcCompute data => ruleCrcCompute data
  | .crcVerify data c => ruleCrcVerify data c
  | .frameEncode d cmd payload => ruleFrameEncode d cmd payload
  | .frameDecode d k raw => ruleFrameDecode d k raw
  | .measDecode r ws => ruleMeasDecode r ws
  | .startPeriodic payload => ruleStartPeriodic payload
  | .stopPeriodic => ruleStopPeriodic
  | .dataReady => ruleDataReady
  | .readMeasurement => ruleReadMeasurement
  | .singleShot => ruleSingleShot
  | .factoryReset => ruleFactoryReset
  | .status => ruleStatus
  | .setAltitude w => ruleSetAltitude w
  | .getAltitude => ruleGetAltitude
  | .setTempOffset w => ruleSetTempOffset w
  | .getTempOffset => ruleGetTempOffset
  | .setAutoCal w => ruleSetAutoCal w

/-- The micro-step at STEP: the rule's own line, or, after an error at an earlier STEP, that line's error part. -/
def State.currentAct (s : State) : Option Act :=
  match s.failed with
  | none => (ruleOfInstr s.cur s.params)[s.stepIndex]?.map Line.act
  | some f =>
    (ruleOfInstr s.cur s.params)[f.atStep]?.bind fun l => l.onError[s.stepIndex - (f.atStep + 1)]?

/-- A micro-step that would read a buffer not written since RESET (R29, 93_implementation_defined.md I11). -/
def readsUnwritten (a : Act) (s : State) : Bool :=
  match a with
  | .write _ _ => !s.txWritten
  | .decodeBuffer _ _ => !s.rxWritten
  | _ => false

/-- One micro-step of the operation in execution. A state placed past the end of its operation's micro-steps has no
next one and stays as it is (93, end of part 1: no behaviour of the block makes one). Where RESET is asserted at a
micro-step that would read an unwritten buffer, the fault comes first: the spec gives I11 and R192 no order
[DESIGN CHOICE, log entry 6; safe]. -/
def resume (s : State) : Host.Outcome State Fault Refusal :=
  match s.currentAct with
  | none => .next s
  | some a => if readsUnwritten a s then .fault .unwrittenBuffer else .next (runAct a s)

end Sys2Proof.Machine
end

