-- ==== Sys2Proof/Machine/Step.lean ====
section
/-! DEFINITION. One step of the machine: a micro-step of an operation in execution, or, while the block is IDLE, the
next move of the platform or the host. -/

namespace Sys2Proof.Machine

/-- One step. While IDLE: RESET comes first, then the host takes a pending response, and only then is the next
request accepted (10_state.md R31, 70_reset_and_hazards.md R196); an accepted request runs as its operation. -/
def step (s : State) : Host.Outcome State Fault Refusal :=
  match s.phase with
  | .exec => resume s
  | .idle =>
    match s.inputs, s.resp with
    | .reset :: _, _ => .next (resetIdle s)
    | _, _ :: _ => .next (takeResponse s)
    | .request op rest :: _, [] =>
      match decodeRequest op rest with
      | .ok i => exec i s.dropInput
      | .error e => .next (refuseRequest e s.dropInput)
    | .elapse ms :: _, [] => .next (elapse ms s)
    | [], [] => .next (waitForRequest s)

/-- The state with an instruction given as a number placed where the next step takes its request. -/
def State.withFetchWord (s : State) (nbits w : Nat) : State := presentTableWord nbits w s

end Sys2Proof.Machine
end

