-- ==== Sys2Proof/Machine/Assembler.lean ====
section
/-! DEFINITION. The textual form of an operation (30_encoding.md R93) and the pseudo-instructions (R94): text to the
operation it stands for on an instance with a known VARIANT. -/

namespace Sys2Proof.Machine

/-- The pseudo-instructions (R94). -/
inductive Pseudo where
  | init
  | frameEncode (cmd : Word) (payload : List Byte)
  | frameDecode (k : Byte) (raw : List Byte)
  | measDecode (ws : List Word)
deriving DecidableEq, Repr

/-- Each pseudo-instruction expands to exactly one operation, fixed by VARIANT (R94). -/
def expandPseudo (v : Variant) : Pseudo → Instr
  | .init => .stopPeriodic
  | .frameEncode cmd payload => .frameEncode (dialectOf v) cmd payload
  | .frameDecode k raw => .frameDecode (dialectOf v) k raw
  | .measDecode ws => .measDecode (ruleOf v) ws

/-- An operand in the text: a number or a bracketed list of numbers. -/
inductive TextOperand where
  | num (n : Nat)
  | list (ns : List Nat)
deriving DecidableEq, Repr

/-- The value of a hexadecimal digit. -/
def hexDigit (c : Char) : Option Nat :=
  if '0' ≤ c ∧ c ≤ '9' then some (c.toNat - 48)
  else if 'a' ≤ c ∧ c ≤ 'f' then some (c.toNat - 87)
  else if 'A' ≤ c ∧ c ≤ 'F' then some (c.toNat - 55)
  else none

/-- Digits in a base, most significant first. -/
def digitsFrom (base : Nat) : Nat → List Char → Option Nat
  | acc, [] => some acc
  | acc, c :: cs =>
    match hexDigit c with
    | some d => if d < base then digitsFrom base (acc * base + d) cs else none
    | none => none

/-- A number in C syntax, `0x..` or decimal (R93); a leading zero is decimal [DESIGN CHOICE, log entry 15; unsafe for a
text with one]. -/
def textNumber : List Char → Option Nat
  | [] => none
  | '0' :: 'x' :: c :: cs => digitsFrom 16 0 (c :: cs)
  | cs => digitsFrom 10 0 cs

/-- The pieces of a text: words, and each comma and bracket by itself. `w` is the word so far, last letter first. -/
def textPieces : List Char → List Char → List (List Char)
  | [], w => if w = [] then [] else [w.reverse]
  | c :: cs, w =>
    let done := if w = [] then [] else [w.reverse]
    if c = ' ' then done ++ textPieces cs []
    else if c = ',' ∨ c = '[' ∨ c = ']' then done ++ [c] :: textPieces cs []
    else textPieces cs (c :: w)

/-- Comma-separated operands. `inside` is the list being read, `due` says that a comma or an end is due. -/
def textOperands : List (List Char) → Option (List Nat) → Bool → Option (List TextOperand)
  | [], none, true => some []
  | [], _, _ => none
  | ['['] :: ts, none, false => textOperands ts (some []) false
  | [','] :: ts, inside, true => textOperands ts inside false
  | [']'] :: ts, some ns, due =>
    if due ∨ ns = [] then (textOperands ts none true).map (.list ns :: ·) else none
  | t :: ts, none, false =>
    match textNumber t with
    | some n => (textOperands ts none true).map (.num n :: ·)
    | none => none
  | t :: ts, some ns, false =>
    match textNumber t with
    | some n => textOperands ts (some (ns ++ [n])) true
    | none => none
  | _ :: _, _, true => none

/-- A number as a Byte, if it is one. -/
def asByte (n : Nat) : Option Byte := if n < 256 then some (BitVec.ofNat 8 n) else none

/-- A number as a Word, if it is one. -/
def asWord (n : Nat) : Option Word := if n < 65536 then some (BitVec.ofNat 16 n) else none

/-- Numbers as Words given one after another. -/
def wordOperands (os : List TextOperand) : Option (List Word) :=
  os.mapM fun o =>
    match o with
    | .num n => asWord n
    | .list _ => none

/-- The operation of a mnemonic and its operands (R93, R94). -/
def assembleOperands (v : Variant) (mnemonic : String) (os : List TextOperand) : Option Instr :=
  match mnemonic, os with
  | "crc.compute", [.list d] => (d.mapM asByte).map .crcCompute
  | "crc.verify", [.list d, .num c] => do return .crcVerify (← d.mapM asByte) (← asByte c)
  | "frame.encode.a", [.num w, .list p] => do return .frameEncode .a (← asWord w) (← p.mapM asByte)
  | "frame.encode.b", [.num w, .list p] => do return .frameEncode .b (← asWord w) (← p.mapM asByte)
  | "frame.encode", [.num w, .list p] => do return expandPseudo v (.frameEncode (← asWord w) (← p.mapM asByte))
  | "frame.decode.a", [.num k, .list r] => do return .frameDecode .a (← asByte k) (← r.mapM asByte)
  | "frame.decode.b", [.num k, .list r] => do return .frameDecode .b (← asByte k) (← r.mapM asByte)
  | "frame.decode", [.num k, .list r] => do return expandPseudo v (.frameDecode (← asByte k) (← r.mapM asByte))
  | "meas.decode.float", ws => (wordOperands ws).map (.measDecode .float)
  | "meas.decode.fixed", ws => (wordOperands ws).map (.measDecode .fixed)
  | "meas.decode", ws => (wordOperands ws).map fun w => expandPseudo v (.measDecode w)
  | "start", [] => some (.startPeriodic [])
  | "start", [.list p] => (p.mapM asByte).map .startPeriodic
  | "init", [] => some (expandPseudo v .init)
  | "stop", [] => some .stopPeriodic
  | "data_ready", [] => some .dataReady
  | "read_measurement", [] => some .readMeasurement
  | "single_shot", [] => some .singleShot
  | "factory_reset", [] => some .factoryReset
  | "status", [] => some .status
  | "set_altitude", [.num w] => (asWord w).map .setAltitude
  | "set_temp_offset", [.num w] => (asWord w).map .setTempOffset
  | "set_auto_cal", [.num w] => (asWord w).map .setAutoCal
  | "get_altitude", [] => some .getAltitude
  | "get_temp_offset", [] => some .getTempOffset
  | _, _ => none

/-- The operation a line of text stands for, if some request frame can carry it (R93). -/
def assemble (v : Variant) (text : String) : Option Instr :=
  match textPieces text.toList [] with
  | [] => none
  | m :: rest =>
    match if rest = [] then some [] else textOperands rest none false with
    | none => none
    | some os =>
      match assembleOperands v (String.ofList m) os with
      | some i => if i.wf then some i else none
      | none => none

end Sys2Proof.Machine
end

