-- ==== Sys2Proof/Machine/Run.lean ====
section
/-! DEFINITION. The run of a host program: when it ends, and the end state it is judged by (70_reset_and_hazards.md
R201). -/

namespace Sys2Proof.Machine

/-- An input that is a request. -/
def Input.isRequest : Input → Bool
  | .request _ _ => true
  | .reset => false
  | .elapse _ => false

/-- The run has ended (R201): PHASE = IDLE, no request is left to present, and the response of the last one has been
taken, or RESET left none. What the platform does after that is no part of the run. -/
def State.runEnded (s : State) : Bool :=
  s.phase == .idle && s.resp.isEmpty && s.inputs.all fun i => !i.isRequest

/-- At most n steps, stopping where the run ends or the machine stops. -/
def runFor : Nat → State → Host.Outcome State Fault Refusal
  | 0, s => .next s
  | n + 1, s =>
    if s.runEnded then .next s
    else
      match step s with
      | .next t => runFor n t
      | .fault f => .fault f
      | .refused r => .refused r

/-- Steps enough for the inputs of an idle block: a pending response is taken, then each input takes one step and,
where it is a request, the taking of its response another. -/
def State.runLength (s : State) : Nat := 2 * s.inputs.length + 1

/-- The end state of a program (R201): the tuple of 10_state.md R22, NOW, the bus writes made, the responses taken. -/
structure EndState where
  session : Session
  readyAt : Nat
  phase : Phase
  stepIndex : Nat
  cur : Instr
  txbuf : List Byte
  rxbuf : List Byte
  resp : List Byte
  now : Nat
  busWrites : List BusAccess
  taken : List (List Byte)
deriving DecidableEq, Repr

/-- The end state that a state shows. -/
def State.endState (s : State) : EndState where
  session := s.session
  readyAt := s.readyAt
  phase := s.phase
  stepIndex := s.stepIndex
  cur := s.cur
  txbuf := s.txbuf
  rxbuf := s.rxbuf
  resp := s.resp
  now := s.now
  busWrites := s.busLog.filter (·.kind == .write)
  taken := s.taken

/-- Runs a host program on an idle block: presents its inputs and answers the end state of the run (R201). The
bus writes and responses of that end state are all those recorded by then, those from before the run with them: R201
does not say whose they are [DESIGN CHOICE, log entry 9; unsafe for a claim that reads them as this run's alone, where
the start state has records or a pending response]. -/
def runProgram (program : List Input) (s : State) : Option EndState :=
  let start := { s with inputs := program }
  match runFor start.runLength start with
  | .next t => if t.runEnded then some t.endState else none
  | .fault _ => none
  | .refused _ => none

end Sys2Proof.Machine
end

