-- ==== Sys2Proof/Safety.lean ====
section
/-! DEFINITION. The terms that statements about runs are made in: the draws an operation uses, the times of its
micro-steps, the state it leaves, and what a legal bus access, response and operation boundary are. -/

namespace Sys2Proof.Machine

/-! ### Draws and times -/

/-- RESET falls in none of the next n micro-steps (70_reset_and_hazards.md R192). -/
abbrev State.undisturbed (s : State) (n : Nat) : Prop := ∀ k, k < n → (s.drawAt k).reset = false

/-- NOW at the k-th micro-step from here, where none of them waits for a deadline. -/
def State.clock (s : State) : Nat → Nat
  | 0 => s.now
  | k + 1 => s.clock k + (s.drawAt k).delay

/-- ACCEPT's timing check passes (43_session.md R130): not REPORT, or NOW has reached READY_AT. -/
abbrev State.onTime (s : State) : Prop := s.params.policy = .report → s.readyAt ≤ s.clock 1

/-- NOW at the WRITE micro-step of an operation's first round trip: ACCEPT, COMPUTE and WAIT come before it, and the
WAIT ends at READY_AT or later (R131). -/
def State.writeTime (s : State) : Nat := max (s.clock 3) s.readyAt + (s.drawAt 3).delay

/-- NOW at the READ micro-step after a WRITE that was micro-step k at `w` and set the deadline `d`: the settling WAIT
is k + 1 (R131). -/
def State.readTime (s : State) (k w d : Nat) : Nat :=
  max (w + (s.drawAt (k + 1)).delay) d + (s.drawAt (k + 2)).delay

/-- The micro-steps of `Finish` and RESPOND (43_session.md R132). -/
def finishSteps (p : Params) : Nat := (finishActs p).length + 1

/-- NOW at RESPOND, where `Finish` begins with micro-step k, the micro-step before it was at `t`, and `d` is the
deadline then in force (R132). -/
def State.respondTime (s : State) (k t d : Nat) : Nat :=
  match s.params.policy with
  | .blockInCall => max (t + (s.drawAt k).delay) d + (s.drawAt (k + 1)).delay
  | .hold => t + (s.drawAt k).delay
  | .report => t + (s.drawAt k).delay

/-! ### The state an operation leaves -/

/-- The state after operation i used n draws and wrote the response `frame` at NOW = t, everything else as before. -/
def State.answered (s : State) (i : Instr) (n t : Nat) (frame : List Byte) : State :=
  { s with
    now := t
    draws := s.draws.drop n
    drawn := s.drawn + n
    cur := i
    phase := .idle
    stepIndex := 0
    words := []
    data := []
    failed := none
    resp := frame }

/-- t is s but for a response: the block is IDLE with `frame` in RESP and `c` in CUR, time may have passed, and the
draws used and the model's locals are as t has them. SESSION, READY_AT, both buffers, the parameters, the bus record,
the responses taken and the inputs are those of s. -/
abbrev State.respondsOnly (s t : State) (c : Instr) (frame : List Byte) : Prop :=
  s.now ≤ t.now ∧ t = { s with
    now := t.now
    draws := t.draws
    drawn := t.drawn
    cur := c
    phase := .idle
    stepIndex := 0
    words := t.words
    data := t.data
    failed := t.failed
    resp := frame }

/-- A request was refused at its ACCEPT with `frame`: nothing but the response, CUR as before (log entry 14), the
model's locals empty as at every boundary (log entry 8). -/
abbrev State.refuses (s t : State) (frame : List Byte) : Prop :=
  s.respondsOnly t s.cur frame ∧ t.words = [] ∧ t.data = [] ∧ t.failed = none

/-- t holds the values that RESET writes, the model's written marks cleared (log entry 6), and what RESET leaves alone
is as in s: the parameters and the responses taken (70_reset_and_hazards.md R190). -/
abbrev State.resetsTo (s t : State) : Prop :=
  t.session = .stopped ∧ t.readyAt = 0 ∧ t.phase = .idle ∧ t.stepIndex = 0 ∧ t.resp = [] ∧ t.txWritten = false ∧
    t.rxWritten = false ∧ t.params = s.params ∧ t.taken = s.taken

/-- The outbound frame of command word w with payload p for this instance (30_encoding.md R90). -/
def State.frame (s : State) (w : Word) (p : List Byte) : List Byte := encodeFrame (dialectOf s.params.variant) w p

/-- A write of `frame` at time t under deadline d. -/
def State.writeEvent (s : State) (frame : List Byte) (t d : Nat) (e : BusEnd) : BusAccess :=
  { kind := .write, addr := s.params.addr, len := frame.length, bytes := frame, time := t, deadline := d, outcome := e }

/-- A read of n Bytes at time t under deadline d. -/
def State.readEvent (s : State) (n : Nat) (bytes : List Byte) (t d : Nat) (e : BusEnd) : BusAccess :=
  { kind := .read, addr := s.params.addr, len := n, bytes := bytes, time := t, deadline := d, outcome := e }

/-- The Bytes the k-th draw from here delivers to a read of n Bytes (20_memory.md R54). -/
def State.delivered (s : State) (k n : Nat) : List Byte := readBytes (s.drawAt k) (s.drawn + (k + 1)) n

/-! ### The spec's tables, as statements use them -/

/-- The first command a session or configuration operation sends, with its payload (43_session.md R134 to R139,
44_config_status.md R160 to R164); `none` for the pure operations and STATUS, which send none. -/
def firstCommand : Instr → Option (CmdName × List Byte)
  | .startPeriodic p => some (.startPeriodic, p)
  | .stopPeriodic => some (.stopPeriodic, [])
  | .dataReady => some (.dataReady, [])
  | .readMeasurement => some (.readMeasurement, [])
  | .singleShot => some (.singleShot, [])
  | .factoryReset => some (.factoryReset, [])
  | .setAltitude w => some (.setAltitude, [hi w, lo w])
  | .getAltitude => some (.getAltitude, [])
  | .setTempOffset w => some (.setTempOffset, [hi w, lo w])
  | .getTempOffset => some (.getTempOffset, [])
  | .setAutoCal w => some (.setAutoCal, [hi w, lo w])
  | .crcCompute _ => none
  | .crcVerify _ _ => none
  | .frameEncode _ _ _ => none
  | .frameDecode _ _ _ => none
  | .measDecode _ _ => none
  | .status => none

/-- `needs(op)` (R130). -/
def needsOf : Instr → List CmdName
  | .singleShot => [.singleShot, .readMeasurement]
  | i => (firstCommand i).toList.map Prod.fst

/-- `state_ok(op, SESSION)` (R130). -/
def sessionAllows : Instr → Session → Bool
  | .startPeriodic _, x => x == .stopped
  | .dataReady, x => x == .periodicRunning
  | .readMeasurement, x => x == .periodicRunning
  | .singleShot, x => x == .stopped
  | _, _ => true

/-- Every command the operation needs has a code (R130). -/
abbrev State.supports (s : State) (i : Instr) : Prop := ∀ c ∈ needsOf i, commandWord s.params c ≠ none

/-- The operations that read one response and send one command: DATA_READY, READ_MEASUREMENT, GET_ALTITUDE,
GET_TEMP_OFFSET (00_scope.md R10). -/
def readCommand : Instr → Option CmdName
  | .dataReady => some .dataReady
  | .readMeasurement => some .readMeasurement
  | .getAltitude => some .getAltitude
  | .getTempOffset => some .getTempOffset
  | _ => none

/-! ### Legal outputs and boundaries -/

/-- The errors that a response can carry (30_encoding.md R85). -/
def legalFailures : List Failure :=
  [writeFailure 0, readFailure 0, checksumFailure 0, writeFailure 1, readFailure 1, checksumFailure 1,
    wrongState, unsupported, timingViolation, illegalOpcodeFailure, malformedFailure]

/-- A response frame the block may write (R84): OK with a result, ALREADY_RUNNING, or an error with its INFO. -/
abbrev legalResponse (frame : List Byte) : Prop :=
  frame.head? = some statusOk ∨ frame = [statusAlreadyRunning] ∨ frame ∈ legalFailures.map Failure.frame

/-- A bus access the block may make: at the instance's ADDR (20_memory.md R51), not before the deadline in force
(R61), a write of 2 to 258 Bytes or a read of 3, 9 or 18 (R55). -/
abbrev BusAccess.legal (b : BusAccess) (addr : BusAddress) : Prop :=
  b.addr = addr ∧ b.deadline ≤ b.time ∧
    ((b.kind = .write ∧ 2 ≤ b.len ∧ b.len ≤ 258 ∧ b.bytes.length = b.len) ∨
      (b.kind = .read ∧ (b.len = 3 ∨ b.len = 9 ∨ b.len = 18) ∧ (b.outcome = .ok → b.bytes.length = b.len)))

/-- An operation boundary: the block is IDLE and holds nothing of an operation, SESSION is one of the two states a
host can observe (10_state.md R24), the buffers fit their bounds (R29), and all it has put out is legal. -/
structure State.AtBoundary (s : State) : Prop where
  phase : s.phase = .idle
  stepIndex : s.stepIndex = 0
  noLocals : s.words = [] ∧ s.data = [] ∧ s.failed = none
  session : s.session ≠ .singleShotPending
  txbuf : s.txbuf.length ≤ 258
  rxbuf : s.rxbuf.length ≤ 18
  resp : s.resp = [] ∨ legalResponse s.resp
  taken : ∀ r ∈ s.taken, legalResponse r
  busLog : ∀ b ∈ s.busLog, b.legal s.params.addr

/-- At most n micro-steps of the operation in execution, stopping at its end or at a fault. -/
def resumeFor : Nat → State → Host.Outcome State Fault Refusal
  | 0, s => .next s
  | n + 1, s =>
    match s.phase with
    | .idle => .next s
    | .exec =>
      match resume s with
      | .next t => resumeFor n t
      | .fault f => .fault f
      | .refused r => .refused r

end Sys2Proof.Machine
end

