-- ==== Sys2Proof/Certificates/Slice0/Obligations.lean ====
section
/-! DEFINITION. The statements for the provers. The statement of a completed operation gives the whole next state, so it
says the result and the frame at once: `answered` keeps every field but those it names, and the `with` part names the
rest. Where a statement counts draws, times or bus accesses, it uses the model's own record of them (log entries 3, 4,
8 and 10). -/

open Sys2Proof Sys2Proof.Machine

/-! ### Encoding -/

/-- Decoding the request of a well-formed operation gives it back (R71, R72, R75 to R82). -/
def Obligations.DecodeOfEncode : Prop :=
  ∀ i : Instr, i.wf = true → decode (encode i) = .ok i

/-- A Byte string that decodes is the one request of a well-formed operation (R72, R83). -/
def Obligations.EncodeOfDecode : Prop :=
  ∀ (bytes : List Byte) (i : Instr), decode bytes = .ok i → encode i = bytes ∧ i.wf = true

/-- A few requests written out from 95_test_vectors.md decode to their operations. -/
def Obligations.SampleRequestsDecode : Prop :=
  decode [0x02, 0x02, 0x00, 0x00, 0x81] = .ok (.crcVerify [0x00, 0x00] 0x81) ∧
    decode [0x13, 0x12, 0x34, 0x02, 0x01, 0xF4] = .ok (.frameEncode .b 0x1234 [0x01, 0xF4]) ∧
    decode [0x14, 0x01, 0x00, 0x00, 0x81] = .ok (.frameDecode .b 1 [0x00, 0x00, 0x81]) ∧
    decode [0x15, 0x01, 0xF4, 0x80, 0x00, 0x40, 0x00] = .ok (.measDecode .fixed [0x01F4, 0x8000, 0x4000]) ∧
    decode [0x20, 0x02, 0x00, 0x00] = .ok (.startPeriodic [0x00, 0x00]) ∧
    decode [0x24] = .ok .singleShot ∧
    decode [0x42, 0x0B, 0xB8] = .ok (.setTempOffset 0x0BB8)

/-- Exactly the twenty values of the map are legal opcodes; every other value ends the operation at ACCEPT with
IllegalOperation(0x01), whatever the Bytes after it, and has no other effect (R73). That CUR stays as it was, and
that the locals are empty, is the model's (log entries 8, 14). -/
def Obligations.IllegalOpcodesRefused : Prop :=
  (∀ op : Byte, opcodeOf op = none ↔
    op ∉ ([0x01, 0x02, 0x03, 0x13, 0x04, 0x14, 0x05, 0x15, 0x20, 0x21, 0x22, 0x23, 0x24, 0x25, 0x26,
      0x40, 0x41, 0x42, 0x43, 0x44] : List Byte)) ∧
    ∀ (s : State) (op : Byte) (rest : List Byte) (more : List Input),
      s.phase = .idle → s.resp = [] → s.inputs = .request op rest :: more → opcodeOf op = none →
        s.undisturbed 1 → ∃ t, step s = .next t ∧ { s with inputs := more }.refuses t [0xFF, 0x01]

/-- With a legal opcode, a request decodes exactly if its length is the one R83 determines from it, and is malformed
otherwise; an illegal opcode is found before any length (R83). -/
def Obligations.LengthDecidesRequests : Prop :=
  (∀ (op : Byte) (rest : List Byte) (o : Opcode), opcodeOf op = some o →
    ((∃ i, decodeRequest op rest = .ok i) ↔ frameLength o (op :: rest) = some (rest.length + 1)) ∧
      (decodeRequest op rest = .error .malformedLength ↔ frameLength o (op :: rest) ≠ some (rest.length + 1))) ∧
    (∀ (op : Byte) (rest : List Byte), opcodeOf op = none → decodeRequest op rest = .error .illegalOpcode)

/-- IllegalOperation is raised at ACCEPT for an opcode outside the map (0x01) and for a legal opcode with a request
of the wrong length (0x02), whatever the session, deadline and policy, and changes nothing else (R175). That CUR
stays as it was, and that the locals are empty, is the model's (log entries 8, 14). -/
def Obligations.BadRequestsRaise : Prop :=
  ∀ (s : State) (op : Byte) (rest : List Byte) (more : List Input),
    s.phase = .idle → s.resp = [] → s.inputs = .request op rest :: more → s.undisturbed 1 →
      (opcodeOf op = none → ∃ t, step s = .next t ∧ { s with inputs := more }.refuses t [0xFF, 0x01]) ∧
      ∀ o, opcodeOf op = some o → frameLength o (op :: rest) ≠ some (rest.length + 1) →
        ∃ t, step s = .next t ∧ { s with inputs := more }.refuses t [0xFF, 0x02]

/-! ### CRC-8 -/

/-- The CRC by R100's pseudocode on numbers: the initial value, and for each further Byte the exclusive-or and eight
shifts, each reduced to eight bits. -/
def Obligations.CrcRecurrence : Prop :=
  let bit : Nat → Nat := fun c => if 128 ≤ c then Nat.xor (2 * c) 0x31 % 256 else 2 * c % 256
  crc8 [] = 0xFF ∧ ∀ (d : List Byte) (b : Byte),
    (crc8 (d ++ [b])).toNat =
      bit (bit (bit (bit (bit (bit (bit (bit (Nat.xor (crc8 d).toNat b.toNat))))))))

/-- Residue: data followed by its CRC has the CRC 0x00 (R102 item 2). -/
def Obligations.CrcResidue : Prop :=
  ∀ d : List Byte, crc8 (d ++ [crc8 d]) = 0x00

/-- Every single-bit error, in any Byte of a span of any length, changes the CRC (R102 item 3). -/
def Obligations.CrcDetectsSingleBit : Prop :=
  ∀ (before after : List Byte) (b : Byte) (k : Nat), k < 8 →
    crc8 (before ++ (b ^^^ BitVec.twoPow 8 k) :: after) ≠ crc8 (before ++ b :: after)

/-- Affinity: the CRCs of two spans of equal length differ by the CRC from 0x00 of their difference (R102 item 4). -/
def Obligations.CrcAffinity : Prop :=
  ∀ d1 d2 : List Byte, d1.length = d2.length →
    crc8 d1 ^^^ crc8 d2 = crcFrom 0x00 (List.zipWith (· ^^^ ·) d1 d2)

/-! ### Codec -/

/-- The outbound frame, Byte for Byte, and its length (R110). -/
def Obligations.EncodeFrameLayout : Prop :=
  ∀ (d : Dialect) (cmd : Word) (p : List Byte),
    encodeFrame d cmd p =
        [cmd.extractLsb' 8 8, cmd.extractLsb' 0 8] ++ p ++ (if d = .a ∧ 0 < p.length then [crc8 p] else []) ∧
      (encodeFrame d cmd p).length = 2 + p.length + (if d = .a ∧ 0 < p.length then 1 else 0)

/-- `decode_words` gives words exactly if the Bytes are those words, each followed by its own CRC; any bad group gives
nothing. The dialect of FRAME_DECODE does not change its response (R112). -/
def Obligations.DecodeWordsExact : Prop :=
  (∀ (raw : List Byte) (k : Nat) (ws : List Word),
    decodeWords raw k = some ws ↔
      ws.length = k ∧ raw = ws.flatMap fun w => [hi w, lo w, crc8 [hi w, lo w]]) ∧
    ∀ (k : Byte) (raw : List Byte) (s : State), ∃ t u, exec (.frameDecode .a k raw) s = .next t ∧
      exec (.frameDecode .b k raw) s = .next u ∧ t.resp = u.resp

/-! ### Converter -/

/-- The Float rule: three patterns, the first word of each its high half, passed through unchanged (R121). -/
def Obligations.FloatRulePassesPatterns : Prop :=
  ∀ u0 u1 u2 u3 u4 u5 : Word,
    (∃ a b c : Pattern, measDecode .float [u0, u1, u2, u3, u4, u5] = some (.floatMeas a b c) ∧
      a.toNat = u0.toNat * 65536 + u1.toNat ∧ b.toNat = u2.toNat * 65536 + u3.toNat ∧
      c.toNat = u4.toNat * 65536 + u5.toNat) ∧
    measData .float [u0, u1, u2, u3, u4, u5] = 0x00 :: wordBytes [u0, u1, u2, u3, u4, u5]

/-- The Fixed-point rule: CO2 as it is, and the exact numerators, within the ranges R122 gives. -/
def Obligations.FixedRuleExact : Prop :=
  ∀ w0 w1 w2 : Word, ∃ t h : Int,
    measDecode .fixed [w0, w1, w2] = some (.fixedMeas w0 t h) ∧
      t = 175 * (w1.toNat : Int) - 2949075 ∧ h = 100 * (w2.toNat : Int) ∧
      -2949075 ≤ t ∧ t ≤ 8519550 ∧ 0 ≤ h ∧ h ≤ 6553500 ∧
      physical t = -45 + 175 * (w1.toNat : Rat) / 65535 ∧ physical h = 100 * (w2.toNat : Rat) / 65535

/-- A reader of a FixedMeas record recovers CO2 and both numerators, the first sign-extended (R123, R124). -/
def Obligations.FixedRecordReadsBack : Prop :=
  ∀ w0 w1 w2 : Word,
    (measData .fixed [w0, w1, w2]).length = 11 ∧
      readFixedRecord (measData .fixed [w0, w1, w2]) =
        some (w0, 175 * (w1.toNat : Int) - 2949075, 100 * (w2.toNat : Int))

/-! ### Pure operations and STATUS complete in every state -/

/-- CRC_COMPUTE answers the CRC of its span and changes nothing else (R103). The time and the draws used are the
model's (log entries 3, 4, 8). -/
def Obligations.CrcComputeCompletes : Prop :=
  ∀ (data : List Byte) (s : State), s.undisturbed 3 →
    exec (.crcCompute data) s = .next (s.answered (.crcCompute data) 3 (s.clock 3) [0x00, crc8 data])

/-- CRC_VERIFY answers OK for a match and a mismatch alike and changes nothing else (R104). The time and the draws
used are the model's (log entries 3, 4, 8). -/
def Obligations.CrcVerifyCompletes : Prop :=
  ∀ (data : List Byte) (c : Byte) (s : State), s.undisturbed 3 →
    exec (.crcVerify data c) s = .next (s.answered (.crcVerify data c) 3 (s.clock 3)
      [0x00, if crc8 data = c then 0x01 else 0x00])

/-- FRAME_ENCODE answers the frame's 16-bit length and the frame, by its own dialect (R86, R111). The time and the
draws used are the model's (log entries 3, 4, 8). -/
def Obligations.FrameEncodeCompletes : Prop :=
  ∀ (d : Dialect) (cmd : Word) (payload : List Byte) (s : State), s.undisturbed 3 →
    exec (.frameEncode d cmd payload) s = .next (s.answered (.frameEncode d cmd payload) 3 (s.clock 3)
      (0x00 :: (be16 (BitVec.ofNat 16 (encodeFrame d cmd payload).length) ++ encodeFrame d cmd payload)))

/-- FRAME_DECODE answers K and the words, or CHECKSUM_ERROR and no word, the same for both dialects (R113). The time
and the draws used are the model's (log entries 3, 4, 8). -/
def Obligations.FrameDecodeCompletes : Prop :=
  ∀ (d : Dialect) (k : Byte) (raw : List Byte) (s : State), s.undisturbed 3 →
    exec (.frameDecode d k raw) s = .next (s.answered (.frameDecode d k raw) 3 (s.clock 3)
      (match decodeWords raw k.toNat with
        | some ws => 0x00 :: k :: wordBytes ws
        | none => [0x81, 0x00]))

/-- MEAS_DECODE answers the record of its own rule in every state (R86, R123, R125). The time and the draws used are
the model's (log entries 3, 4, 8). -/
def Obligations.MeasDecodeCompletes : Prop :=
  (∀ (u0 u1 u2 u3 u4 u5 : Word) (s : State), s.undisturbed 3 →
    exec (.measDecode .float [u0, u1, u2, u3, u4, u5]) s = .next
      (s.answered (.measDecode .float [u0, u1, u2, u3, u4, u5]) 3 (s.clock 3)
        (0x00 :: 0x00 :: wordBytes [u0, u1, u2, u3, u4, u5]))) ∧
    ∀ (w0 w1 w2 : Word) (s : State), s.undisturbed 3 →
      exec (.measDecode .fixed [w0, w1, w2]) s = .next
        (s.answered (.measDecode .fixed [w0, w1, w2]) 3 (s.clock 3)
          (0x00 :: 0x01 :: (be16 w0 ++ be32 (BitVec.ofInt 32 (175 * (w1.toNat : Int) - 2949075)) ++
            be32 (BitVec.ofNat 32 (100 * w2.toNat)))))

/-- STATUS answers its fifteen Bytes in every state, with no check and no wait (R33, R165). The time and the draws
used are the model's (log entries 3, 4, 8). -/
def Obligations.StatusCompletes : Prop :=
  ∀ s : State, s.undisturbed 3 →
    exec .status s = .next (s.answered .status 3 (s.clock 3)
      (0x00 :: stByte s.session s.params :: (be64 s.readyAt ++
        [s.params.addr.setWidth 8, hi s.params.cfgAlt, lo s.params.cfgAlt, hi s.params.cfgToff, lo s.params.cfgToff,
          if s.params.cfgAsc then 0x01 else 0x00])))

/-- The ST Byte's fields (R33): SESSION, two reserved zeros, VARIANT, WAIT_POLICY, BUSY read as 0. -/
def Obligations.StByteFields : Prop :=
  ∀ (x : Session) (p : Params),
    (stByte x p).extractLsb' 0 2 = (match x with | .stopped => 0 | .periodicRunning => 1 | .singleShotPending => 2) ∧
      (stByte x p).extractLsb' 2 2 = 0 ∧
      (stByte x p).getLsbD 4 = (p.variant == .fixedPointPeriodic) ∧
      (stByte x p).extractLsb' 5 2 = (match p.policy with | .blockInCall => 0 | .hold => 1 | .report => 2) ∧
      (stByte x p).getLsbD 7 = false

/-! ### Session and configuration operations complete -/

/-- START_PERIODIC from STOPPED sends the command with its payload, goes to PERIODIC_RUNNING and sets the deadline
(R131, R132, R134). The draws, the times between them, the written marks and the bus record are the model's (log
entries 3, 4, 6, 8, 10). -/
def Obligations.StartPeriodicCompletes : Prop :=
  ∀ (s : State) (payload : List Byte) (w : Word),
    s.session = .stopped → commandWord s.params .startPeriodic = some w → s.onTime →
      s.undisturbed (5 + finishSteps s.params) → (s.drawAt 3).ok = true →
        exec (.startPeriodic payload) s = .next
          { s.answered (.startPeriodic payload) (5 + finishSteps s.params)
              (s.respondTime 5 (s.writeTime + (s.drawAt 4).delay) (s.writeTime + s.params.tStart)) [0x00] with
            session := .periodicRunning
            readyAt := s.writeTime + s.params.tStart
            txbuf := s.frame w payload
            txWritten := true
            busLog := s.busLog ++ [s.writeEvent (s.frame w payload) s.writeTime s.readyAt .ok] }

/-- STOP_PERIODIC sends its command in every SESSION and ends in STOPPED (R135). The draws, the times between them,
the written marks and the bus record are the model's (log entries 3, 4, 6, 8, 10). -/
def Obligations.StopPeriodicCompletes : Prop :=
  ∀ (s : State) (w : Word),
    commandWord s.params .stopPeriodic = some w → s.onTime →
      s.undisturbed (5 + finishSteps s.params) → (s.drawAt 3).ok = true →
        exec .stopPeriodic s = .next
          { s.answered .stopPeriodic (5 + finishSteps s.params)
              (s.respondTime 5 (s.writeTime + (s.drawAt 4).delay) (s.writeTime + s.params.tStop)) [0x00] with
            session := .stopped
            readyAt := s.writeTime + s.params.tStop
            txbuf := s.frame w []
            txWritten := true
            busLog := s.busLog ++ [s.writeEvent (s.frame w []) s.writeTime s.readyAt .ok] }

/-- FACTORY_RESET sends its command in every SESSION and ends in STOPPED (R139). The draws, the times between them,
the written marks and the bus record are the model's (log entries 3, 4, 6, 8, 10). -/
def Obligations.FactoryResetCompletes : Prop :=
  ∀ (s : State) (w : Word),
    commandWord s.params .factoryReset = some w → s.onTime →
      s.undisturbed (5 + finishSteps s.params) → (s.drawAt 3).ok = true →
        exec .factoryReset s = .next
          { s.answered .factoryReset (5 + finishSteps s.params)
              (s.respondTime 5 (s.writeTime + (s.drawAt 4).delay) (s.writeTime + s.params.tReset)) [0x00] with
            session := .stopped
            readyAt := s.writeTime + s.params.tReset
            txbuf := s.frame w []
            txWritten := true
            busLog := s.busLog ++ [s.writeEvent (s.frame w []) s.writeTime s.readyAt .ok] }

/-- DATA_READY answers 0x01 exactly if the response word is 0x0001 (R136). The draws, the times between them, the
written marks and the bus record are the model's (log entries 3, 4, 6, 8, 10). -/
def Obligations.DataReadyCompletes : Prop :=
  ∀ (s : State) (w x : Word),
    s.session = .periodicRunning → commandWord s.params .dataReady = some w → s.onTime →
      s.undisturbed (8 + finishSteps s.params) → (s.drawAt 3).ok = true → (s.drawAt 5).ok = true →
        decodeWords (s.delivered 5 3) 1 = some [x] →
          let d := s.writeTime + s.params.tCmd
          let r := s.readTime 3 s.writeTime d
          exec .dataReady s = .next
            { s.answered .dataReady (8 + finishSteps s.params)
                (s.respondTime 8 (r + (s.drawAt 6).delay + (s.drawAt 7).delay) d)
                [0x00, if x = 0x0001 then 0x01 else 0x00] with
              readyAt := d
              txbuf := s.frame w []
              txWritten := true
              rxbuf := s.delivered 5 3
              rxWritten := true
              busLog := s.busLog ++ [s.writeEvent (s.frame w []) s.writeTime s.readyAt .ok,
                s.readEvent 3 (s.delivered 5 3) r d .ok] }

/-- READ_MEASUREMENT answers the record of the words it read, by the instance's rule (R137). The draws, the times
between them, the written marks and the bus record are the model's (log entries 3, 4, 6, 8, 10). -/
def Obligations.ReadMeasurementCompletes : Prop :=
  ∀ (s : State) (w : Word) (ws : List Word),
    s.session = .periodicRunning → commandWord s.params .readMeasurement = some w → s.onTime →
      s.undisturbed (8 + finishSteps s.params) → (s.drawAt 3).ok = true → (s.drawAt 5).ok = true →
        let n := if s.params.variant = .floatContinuous then 6 else 3
        decodeWords (s.delivered 5 (3 * n)) n = some ws →
          let d := s.writeTime + s.params.tCmd
          let r := s.readTime 3 s.writeTime d
          exec .readMeasurement s = .next
            { s.answered .readMeasurement (8 + finishSteps s.params)
                (s.respondTime 8 (r + (s.drawAt 6).delay + (s.drawAt 7).delay) d)
                (0x00 :: measData (ruleOf s.params.variant) ws) with
              readyAt := d
              txbuf := s.frame w []
              txWritten := true
              rxbuf := s.delivered 5 (3 * n)
              rxWritten := true
              busLog := s.busLog ++ [s.writeEvent (s.frame w []) s.writeTime s.readyAt .ok,
                s.readEvent (3 * n) (s.delivered 5 (3 * n)) r d .ok] }

/-- SINGLE_SHOT sends both commands, the second after the fixed settling wait under every policy, reads once, answers
the record and ends in STOPPED (R138). The draws, the times between them, the written marks and the bus record are the
model's (log entries 3, 4, 6, 8, 10). -/
def Obligations.SingleShotCompletes : Prop :=
  ∀ (s : State) (w v : Word) (ws : List Word),
    s.session = .stopped → commandWord s.params .singleShot = some w →
      commandWord s.params .readMeasurement = some v → s.onTime →
        s.undisturbed (13 + finishSteps s.params) →
          (s.drawAt 3).ok = true → (s.drawAt 7).ok = true → (s.drawAt 9).ok = true →
            let n := if s.params.variant = .floatContinuous then 6 else 3
            decodeWords (s.delivered 9 (3 * n)) n = some ws →
              let d1 := s.writeTime + s.params.tSingle
              let w2 := max (s.writeTime + (s.drawAt 4).delay + (s.drawAt 5).delay + (s.drawAt 6).delay) d1 +
                (s.drawAt 7).delay
              let d2 := w2 + s.params.tCmd
              let r := s.readTime 7 w2 d2
              exec .singleShot s = .next
                { s.answered .singleShot (13 + finishSteps s.params)
                    (s.respondTime 13 (r + (s.drawAt 10).delay + (s.drawAt 11).delay + (s.drawAt 12).delay) d2)
                    (0x00 :: measData (ruleOf s.params.variant) ws) with
                  readyAt := d2
                  txbuf := s.frame v []
                  txWritten := true
                  rxbuf := s.delivered 9 (3 * n)
                  rxWritten := true
                  busLog := s.busLog ++ [s.writeEvent (s.frame w []) s.writeTime s.readyAt .ok,
                    s.writeEvent (s.frame v []) w2 d1 .ok,
                    s.readEvent (3 * n) (s.delivered 9 (3 * n)) r d2 .ok] }

/-- SINGLE_SHOT enters SINGLE_SHOT_PENDING right after its first write succeeded, holds it until the read round trip
has ended, whether by its write, its read or its CRC check, and is in STOPPED before and after (R24, R138). The
numbering of micro-steps is the model's (log entry 8): the first write is micro-step 3, the second 7, the read 9. -/
def Obligations.SingleShotPending : Prop :=
  ∀ (s : State) (w v : Word),
    s.session = .stopped → commandWord s.params .singleShot = some w →
      commandWord s.params .readMeasurement = some v → s.onTime → s.undisturbed 12 → (s.drawAt 3).ok = true →
        let ended := if (s.drawAt 7).ok then (if (s.drawAt 9).ok then 11 else 10) else 8
        ∀ k, k ≤ ended + 1 → ∃ u, resumeFor k (s.begin .singleShot) = .next u ∧ u.phase = .exec ∧ u.stepIndex = k ∧
          u.session = if 5 ≤ k ∧ k ≤ ended then .singleShotPending else .stopped

/-- SET_ALTITUDE, SET_TEMP_OFFSET and SET_AUTO_CAL send the raw word in every SESSION and write no session and no
local setting (R160, R162, R164). The draws, the times between them, the written marks and the bus record are the
model's (log entries 3, 4, 6, 8, 10). -/
def Obligations.SettersComplete : Prop :=
  ∀ (s : State) (i : Instr) (c : CmdName) (x w : Word),
    (i = .setAltitude x ∧ c = .setAltitude ∨ i = .setTempOffset x ∧ c = .setTempOffset ∨
      i = .setAutoCal x ∧ c = .setAutoCal) →
      commandWord s.params c = some w → s.onTime → s.undisturbed (4 + finishSteps s.params) →
        (s.drawAt 3).ok = true →
          exec i s = .next
            { s.answered i (4 + finishSteps s.params)
                (s.respondTime 4 s.writeTime (s.writeTime + s.params.tCmd)) [0x00] with
              readyAt := s.writeTime + s.params.tCmd
              txbuf := s.frame w [hi x, lo x]
              txWritten := true
              busLog := s.busLog ++ [s.writeEvent (s.frame w [hi x, lo x]) s.writeTime s.readyAt .ok] }

/-- GET_ALTITUDE and GET_TEMP_OFFSET ask the device in every SESSION and answer the raw word (R161, R163). The draws,
the times between them, the written marks and the bus record are the model's (log entries 3, 4, 6, 8, 10). -/
def Obligations.GettersComplete : Prop :=
  ∀ (s : State) (i : Instr) (c : CmdName) (w x : Word),
    (i = .getAltitude ∧ c = .getAltitude ∨ i = .getTempOffset ∧ c = .getTempOffset) →
      commandWord s.params c = some w → s.onTime → s.undisturbed (7 + finishSteps s.params) →
        (s.drawAt 3).ok = true → (s.drawAt 5).ok = true → decodeWords (s.delivered 5 3) 1 = some [x] →
          let d := s.writeTime + s.params.tCmd
          let r := s.readTime 3 s.writeTime d
          exec i s = .next
            { s.answered i (7 + finishSteps s.params) (s.respondTime 7 (r + (s.drawAt 6).delay) d)
                [0x00, hi x, lo x] with
              readyAt := d
              txbuf := s.frame w []
              txWritten := true
              rxbuf := s.delivered 5 3
              rxWritten := true
              busLog := s.busLog ++ [s.writeEvent (s.frame w []) s.writeTime s.readyAt .ok,
                s.readEvent 3 (s.delivered 5 3) r d .ok] }

/-! ### Where an operation is turned away -/

/-- START_PERIODIC outside STOPPED reports ALREADY_RUNNING at any NOW and under any policy: no command, and no change of
the state of R22 but the response and, in CUR, the accepted operation (R26, R134, R176). -/
def Obligations.AlreadyRunningReported : Prop :=
  ∀ (s : State) (payload : List Byte),
    s.session ≠ .stopped → s.supports (.startPeriodic payload) → s.undisturbed 1 →
      ∃ t, exec (.startPeriodic payload) s = .next t ∧ s.respondsOnly t (.startPeriodic payload) [0x01]

/-- ProtocolStateError: UNSUPPORTED where a needed command has no code, else WRONG_STATE where the SESSION does not
allow the operation; nothing is written and nothing is sent (R173); CUR holds the accepted operation (R26). -/
def Obligations.ProtocolStateErrors : Prop :=
  (∀ (s : State) (i : Instr), ¬ s.supports i → s.undisturbed 1 →
    ∃ t, exec i s = .next t ∧ s.respondsOnly t i [0x82, 0x02]) ∧
    ∀ (s : State) (i : Instr), s.supports i → sessionAllows i s.session = false →
      (∀ p, i ≠ .startPeriodic p) → s.undisturbed 1 →
        ∃ t, exec i s = .next t ∧ s.respondsOnly t i [0x82, 0x01]

/-- TimingViolation: under REPORT an operation presented before the deadline is refused with nothing written and
nothing sent; under the other policies no operation ever reports it, and every bus access waits for the deadline in
force (R174). The refused operation is in CUR (R26). -/
def Obligations.TimingViolations : Prop :=
  (∀ (s : State) (i : Instr), firstCommand i ≠ none → s.supports i → sessionAllows i s.session = true →
    s.params.policy = .report → s.clock 1 < s.readyAt → s.undisturbed 1 →
      ∃ t, exec i s = .next t ∧ s.respondsOnly t i [0x83, 0x00]) ∧
    ∀ (s t : State) (i : Instr), s.params.policy ≠ .report → exec i s = .next t →
      t.resp.head? ≠ some 0x83 ∧ ∃ new, t.busLog = s.busLog ++ new ∧ ∀ b ∈ new, b.deadline ≤ b.time

/-! ### Bus and checksum errors -/

/-- The first write fails: BusError(0x01); SESSION and READY_AT are unchanged; under BLOCK_IN_CALL the response comes
no earlier than READY_AT (R131, R132, R171). The draws, the times between them, the written marks and the bus record
are the model's (log entries 3, 4, 6, 8, 10). -/
def Obligations.FirstWriteFails : Prop :=
  ∀ (s : State) (i : Instr) (c : CmdName) (p : List Byte) (w : Word),
    firstCommand i = some (c, p) → commandWord s.params c = some w → s.supports i →
      sessionAllows i s.session = true → s.onTime → s.undisturbed (4 + finishSteps s.params) →
        (s.drawAt 3).ok = false →
          exec i s = .next
            { s.answered i (4 + finishSteps s.params) (s.respondTime 4 s.writeTime s.readyAt) [0x80, 0x01] with
              txbuf := s.frame w p
              txWritten := true
              busLog := s.busLog ++ [s.writeEvent (s.frame w p) s.writeTime s.readyAt .fail] }

/-- The read of DATA_READY, READ_MEASUREMENT or a getter fails: BusError(0x02); the deadline of the successful write
stays; RXBUF and SESSION are unchanged (R131, R171). The draws, the times between them, the written marks and the bus
record are the model's (log entries 3, 4, 6, 8, 10). -/
def Obligations.ReadFails : Prop :=
  ∀ (s : State) (i : Instr) (c : CmdName) (w : Word),
    readCommand i = some c → commandWord s.params c = some w → sessionAllows i s.session = true → s.onTime →
      s.undisturbed (6 + finishSteps s.params) → (s.drawAt 3).ok = true → (s.drawAt 5).ok = false →
        let d := s.writeTime + s.params.tCmd
        let r := s.readTime 3 s.writeTime d
        exec i s = .next
          { s.answered i (6 + finishSteps s.params) (s.respondTime 6 r d) [0x80, 0x02] with
            readyAt := d
            txbuf := s.frame w []
            txWritten := true
            busLog := s.busLog ++ [s.writeEvent (s.frame w []) s.writeTime s.readyAt .ok,
              s.readEvent (3 * responseWords s.params.variant c) [] r d .fail] }

/-- A group of the response of DATA_READY, READ_MEASUREMENT or a getter fails its CRC: ChecksumError(0x00), no word is
returned, SESSION is unchanged (R131, R172). The draws, the times between them, the written marks and the bus record
are the model's (log entries 3, 4, 6, 8, 10). -/
def Obligations.ChecksumFails : Prop :=
  ∀ (s : State) (i : Instr) (c : CmdName) (w : Word),
    readCommand i = some c → commandWord s.params c = some w → sessionAllows i s.session = true → s.onTime →
      s.undisturbed (7 + finishSteps s.params) → (s.drawAt 3).ok = true → (s.drawAt 5).ok = true →
        let n := responseWords s.params.variant c
        decodeWords (s.delivered 5 (3 * n)) n = none →
          let d := s.writeTime + s.params.tCmd
          let r := s.readTime 3 s.writeTime d
          exec i s = .next
            { s.answered i (7 + finishSteps s.params) (s.respondTime 7 (r + (s.drawAt 6).delay) d) [0x81, 0x00] with
              readyAt := d
              txbuf := s.frame w []
              txWritten := true
              rxbuf := s.delivered 5 (3 * n)
              rxWritten := true
              busLog := s.busLog ++ [s.writeEvent (s.frame w []) s.writeTime s.readyAt .ok,
                s.readEvent (3 * n) (s.delivered 5 (3 * n)) r d .ok] }

/-- SINGLE_SHOT whose second write fails: BusError(0x11), SESSION is STOPPED after, the first deadline stays (R138).
The draws, the times between them, the written marks and the bus record are the model's (log entries 3, 4, 6, 8,
10). -/
def Obligations.SingleShotSecondWriteFails : Prop :=
  ∀ (s : State) (w v : Word),
    s.session = .stopped → commandWord s.params .singleShot = some w →
      commandWord s.params .readMeasurement = some v → s.onTime →
        s.undisturbed (9 + finishSteps s.params) → (s.drawAt 3).ok = true → (s.drawAt 7).ok = false →
          let d1 := s.writeTime + s.params.tSingle
          let w2 := max (s.writeTime + (s.drawAt 4).delay + (s.drawAt 5).delay + (s.drawAt 6).delay) d1 +
            (s.drawAt 7).delay
          exec .singleShot s = .next
            { s.answered .singleShot (9 + finishSteps s.params) (s.respondTime 9 (w2 + (s.drawAt 8).delay) d1)
                [0x80, 0x11] with
              session := .stopped
              readyAt := d1
              txbuf := s.frame v []
              txWritten := true
              busLog := s.busLog ++ [s.writeEvent (s.frame w []) s.writeTime s.readyAt .ok,
                s.writeEvent (s.frame v []) w2 d1 .fail] }

/-- SINGLE_SHOT whose read fails, or whose response fails its CRC: BusError(0x12) or ChecksumError(0x10), SESSION ends
in STOPPED, the second deadline stays (R138). The draws, the times between them, the written marks and the bus record
are the model's (log entries 3, 4, 6, 8, 10). -/
def Obligations.SingleShotReadFails : Prop :=
  ∀ (s : State) (w v : Word),
    s.session = .stopped → commandWord s.params .singleShot = some w →
      commandWord s.params .readMeasurement = some v → s.onTime →
        s.undisturbed (12 + finishSteps s.params) → (s.drawAt 3).ok = true → (s.drawAt 7).ok = true →
          let n := if s.params.variant = .floatContinuous then 6 else 3
          let d1 := s.writeTime + s.params.tSingle
          let w2 := max (s.writeTime + (s.drawAt 4).delay + (s.drawAt 5).delay + (s.drawAt 6).delay) d1 +
            (s.drawAt 7).delay
          let d2 := w2 + s.params.tCmd
          let r := s.readTime 7 w2 d2
          ((s.drawAt 9).ok = false →
            exec .singleShot s = .next
              { s.answered .singleShot (11 + finishSteps s.params) (s.respondTime 11 (r + (s.drawAt 10).delay) d2)
                  [0x80, 0x12] with
                session := .stopped
                readyAt := d2
                txbuf := s.frame v []
                txWritten := true
                busLog := s.busLog ++ [s.writeEvent (s.frame w []) s.writeTime s.readyAt .ok,
                  s.writeEvent (s.frame v []) w2 d1 .ok, s.readEvent (3 * n) [] r d2 .fail] }) ∧
          ((s.drawAt 9).ok = true → decodeWords (s.delivered 9 (3 * n)) n = none →
            exec .singleShot s = .next
              { s.answered .singleShot (12 + finishSteps s.params)
                  (s.respondTime 12 (r + (s.drawAt 10).delay + (s.drawAt 11).delay) d2) [0x81, 0x10] with
                session := .stopped
                readyAt := d2
                txbuf := s.frame v []
                txWritten := true
                rxbuf := s.delivered 9 (3 * n)
                rxWritten := true
                busLog := s.busLog ++ [s.writeEvent (s.frame w []) s.writeTime s.readyAt .ok,
                  s.writeEvent (s.frame v []) w2 d1 .ok,
                  s.readEvent (3 * n) (s.delivered 9 (3 * n)) r d2 .ok] })

/-! ### RESET -/

/-- RESET writes the values of R190, leaves the parameters and NOW as they are, and makes no bus access: at
construction, and on an idle block wherever the platform asserts it, which is as an input of its own, while the
block waits for a request, or at the ACCEPT of a request that is refused. The list of inputs, the draw that asserts
RESET and its delay before that are the model's (log entries 4, 5, 9, 14), and so are the written marks that it
clears (log entry 6). -/
def Obligations.ResetEvent : Prop :=
  (∀ p : Params, (State.initial p).session = .stopped ∧ (State.initial p).readyAt = 0 ∧
    (State.initial p).phase = .idle ∧ (State.initial p).stepIndex = 0 ∧ (State.initial p).resp = [] ∧
    (State.initial p).txWritten = false ∧ (State.initial p).rxWritten = false ∧ (State.initial p).params = p ∧ (State.initial p).busLog = []) ∧
    (∀ (s : State) (more : List Input), s.phase = .idle → s.inputs = .reset :: more →
      ∃ t, step s = .next t ∧ s.resetsTo t ∧ t.now = s.now ∧ t.busLog = s.busLog ∧ t.inputs = more) ∧
    (∀ s : State, s.phase = .idle → s.resp = [] → s.inputs = [] → (s.drawAt 0).reset = true →
      ∃ t, step s = .next t ∧ s.resetsTo t ∧ t.now = s.now + (s.drawAt 0).delay ∧ t.busLog = s.busLog ∧
        t.inputs = []) ∧
    ∀ (s : State) (op : Byte) (rest : List Byte) (more : List Input) (e : BadRequest),
      s.phase = .idle → s.resp = [] → s.inputs = .request op rest :: more → decodeRequest op rest = .error e →
        (s.drawAt 0).reset = true →
          ∃ t, step s = .next t ∧ s.resetsTo t ∧ t.now = s.now + (s.drawAt 0).delay ∧ t.busLog = s.busLog ∧
            t.inputs = more

/-- The state after reset is an operation boundary. That its buffers fit the bounds of R29 is the model's: R190 leaves
their contents unspecified (log entry 6). -/
def Obligations.ResetAtBoundary : Prop := State.reset.AtBoundary

/-- RESET inside an operation abandons it after any number k of its micro-steps: no response, RESET's values, and on
the bus at most one access cut short (R192). Where RESET falls, the written marks it clears, and what the record
shows of a cut access are the model's (log entries 5, 6, 10). -/
def Obligations.ResetAbandonsOperation : Prop :=
  ∀ (i : Instr) (s u : State) (k : Nat),
    resumeFor k (s.begin i) = .next u → u.phase = .exec → (u.drawAt 0).reset = true →
      ∃ t, exec i s = .next t ∧ s.resetsTo t ∧ t.now = u.now + (u.drawAt 0).delay ∧ t.inputs = s.inputs ∧
        (t.busLog = u.busLog ∨ ∃ b, t.busLog = u.busLog ++ [b] ∧ b.outcome = .abandoned)

/-! ### The whole machine -/

/-- A step at an IDLE block with a decodable request and no pending response runs the operation, the request gone from
the inputs (R26, R70). The list of inputs and one step for a whole operation are the model's (log entries 1, 9). -/
def Obligations.StepRunsDecodedOperation : Prop :=
  ∀ (s : State) (op : Byte) (rest : List Byte) (more : List Input) (i : Instr),
    s.phase = .idle → s.resp = [] → s.inputs = .request op rest :: more → decodeRequest op rest = .ok i →
      step s = exec i { s with inputs := more }

/-- A pending response is taken before any input but RESET: before the next request is accepted, before time passes,
and with no input left; taking it empties RESP and changes nothing else of the block (R31, R196). The host's taking
as a step of its own is the model's (log entry 9). -/
def Obligations.ResponseTakenFirst : Prop :=
  ∀ s : State, s.phase = .idle → s.resp ≠ [] → s.inputs.head? ≠ some .reset →
    step s = .next { s with resp := [], taken := s.taken ++ [s.resp] }

/-- Where only time passes for an idle block, be it before the next input or while it waits for one, nothing but NOW
changes: SESSION, READY_AT, CUR, the buffers, RESP, the parameters and the records stay (R24, R25, R183, R190). The list
of inputs and the draws are the model's (log entries 3, 4, 9). -/
def Obligations.PassingTimeChangesNothing : Prop :=
  (∀ (s : State) (ms : Nat) (more : List Input), s.phase = .idle → s.resp = [] → s.inputs = .elapse ms :: more →
    step s = .next { s with now := s.now + ms, inputs := more }) ∧
    ∀ s : State, s.phase = .idle → s.resp = [] → s.inputs = [] → s.undisturbed 1 →
      step s = .next { s with now := s.clock 1, draws := s.draws.drop 1, drawn := s.drawn + 1 }

/-- Every step from an operation boundary leads to an operation boundary (R24, R26, R29, R51, R55, R61, R84). The
record and the bound of the buffers after RESET are the model's (log entries 6, 10). -/
def Obligations.StepKeepsBoundary : Prop :=
  ∀ s t : State, s.AtBoundary → step s = .next t → t.AtBoundary

/-- An IDLE block never stops: every step is a next state, so no request ends a run (R170, R178, R179). What an idle
block does next is the model's list of inputs (log entry 9). -/
def Obligations.IdleNeverStops : Prop :=
  ∀ s : State, s.phase = .idle → ∃ t, step s = .next t

/-- The run of a host program on an idle block ends, under the model's choice that the time source reaches every
deadline (log entry 4: a time source that stops would hold an operation for ever): whatever the host presents and the
bus and the platform answer, at most two steps for each input and one for a response already pending lead to the end of
R201, with no step that stops, and no access or response already recorded is lost. The list of inputs and the records
are the model's (log entries 9, 10). -/
def Obligations.RunEnds : Prop :=
  ∀ s : State, s.phase = .idle →
    ∃ t, runFor s.runLength s = .next t ∧ t.phase = .idle ∧ t.resp = [] ∧ (∀ i ∈ t.inputs, i.isRequest = false) ∧
      s.taken <+: t.taken ∧ s.busLog <+: t.busLog

/-- No step writes a construction parameter (R20). -/
def Obligations.ParametersNeverChange : Prop :=
  ∀ s t : State, step s = .next t → t.params = s.params

/-- NOW never decreases (R30). NOW moves by the model's delays (log entry 4). -/
def Obligations.NowNeverDecreases : Prop :=
  ∀ s t : State, step s = .next t → s.now ≤ t.now

/-- Every bus access of an operation goes to ADDR, has a legal length, and starts at or after the deadline then in
force, under every policy (R51, R55, R61). The record is the model's (log entry 10). -/
def Obligations.BusAccessesLegal : Prop :=
  ∀ (i : Instr) (s t : State), i.wf = true → exec i s = .next t →
    ∃ new, t.busLog = s.busLog ++ new ∧ ∀ b ∈ new, b.legal s.params.addr

/-- READY_AT after an operation: as before, or 0 where RESET cut it, or the time of a successful write of that
operation plus the settling time of the command it carried: the k-th write carries the k-th command the operation needs
(R25, R183). The record is the model's (log entry 10). -/
def Obligations.ReadyAtWriters : Prop :=
  ∀ (i : Instr) (s t : State), exec i s = .next t →
    t.readyAt = s.readyAt ∨ (t.resp = [] ∧ t.readyAt = 0) ∨
      ∃ new, t.busLog = s.busLog ++ new ∧ ∃ (k : Nat) (b : BusAccess) (c : CmdName) (w : Word) (p : List Byte),
        (new.filter (·.kind == .write))[k]? = some b ∧ (needsOf i)[k]? = some c ∧
          commandWord s.params c = some w ∧ b.bytes = s.frame w p ∧ b.outcome = .ok ∧
            t.readyAt = b.time + settling s.params c

/-- Every operation ends in IDLE with exactly one legal response, or with none where RESET cut it (R32, R84, R192). That
it ends is under the choice that the time source reaches every deadline (log entry 4). -/
def Obligations.OneLegalResponse : Prop :=
  ∀ (i : Instr) (s t : State), exec i s = .next t →
    t.phase = .idle ∧ t.stepIndex = 0 ∧ t.taken = s.taken ∧
      (legalResponse t.resp ∨ (t.resp = [] ∧ t.session = .stopped ∧ t.readyAt = 0))

/-- The SESSION transitions of an operation that RESET does not cut: START_PERIODIC, STOP_PERIODIC and FACTORY_RESET
change it exactly where they answer OK, every other operation leaves it (R140). -/
def Obligations.SessionTransitions : Prop :=
  ∀ (i : Instr) (s t : State), s.session ≠ .singleShotPending → exec i s = .next t → t.resp ≠ [] →
    t.session =
      match i with
      | .startPeriodic _ => if t.resp = [0x00] then .periodicRunning else s.session
      | .stopPeriodic => if t.resp = [0x00] then .stopped else s.session
      | .factoryReset => if t.resp = [0x00] then .stopped else s.session
      | _ => s.session

/-- The sequencer's micro-steps, one at a time from ACCEPT, make the operation: `exec` is what enough steps of
`resume` answer (R27). The numbering of micro-steps is the model's (log entry 8). -/
def Obligations.MicroStepsMakeOperation : Prop :=
  ∀ (i : Instr) (s : State), ∃ n, resumeFor n (s.begin i) = exec i s

/-- The machine faults exactly where a micro-step would read a buffer not written since RESET (R29). The fault, the
written marks, and that the fault comes before a RESET asserted there, are the model's (log entry 6). -/
def Obligations.UnwrittenBufferFaults : Prop :=
  ∀ s : State, step s = .fault .unwrittenBuffer ↔
    s.phase = .exec ∧
      ((s.txWritten = false ∧ ∃ c t, s.currentAct = some (.write c t)) ∨
        (s.rxWritten = false ∧ ∃ n t, s.currentAct = some (.decodeBuffer n t)))

/-! ### Tables -/

/-- The settling table (R133). -/
def Obligations.SettlingTable : Prop :=
  ∀ p : Params, settling p .startPeriodic = p.tStart ∧ settling p .stopPeriodic = p.tStop ∧
    settling p .factoryReset = p.tReset ∧ settling p .singleShot = p.tSingle ∧
    ∀ c ∈ [CmdName.dataReady, .readMeasurement, .setAltitude, .setTempOffset, .setAutoCal, .getAltitude,
      .getTempOffset], settling p c = p.tCmd

/-- The response length table (R10), in words and in Bytes on the wire. -/
def Obligations.ResponseLengthTable : Prop :=
  ∀ v : Variant, responseWords v .dataReady = 1 ∧ responseWords v .getAltitude = 1 ∧
    responseWords v .getTempOffset = 1 ∧
    responseWords v .readMeasurement = (if v = .floatContinuous then 6 else 3) ∧
    (∀ c ∈ [CmdName.startPeriodic, .stopPeriodic, .setTempOffset, .setAltitude, .setAutoCal, .factoryReset,
      .singleShot], responseWords v c = 0) ∧
    3 * responseWords v .dataReady = 3 ∧
    3 * responseWords v .readMeasurement = (if v = .floatContinuous then 18 else 9)

/-- The pseudo-instructions' expansions (R94). -/
def Obligations.PseudoExpansions : Prop :=
  ∀ (v : Variant) (cmd : Word) (p raw : List Byte) (k : Byte) (ws : List Word),
    expandPseudo v .init = .stopPeriodic ∧
      expandPseudo v (.frameEncode cmd p) = .frameEncode (if v = .floatContinuous then .a else .b) cmd p ∧
      expandPseudo v (.frameDecode k raw) = .frameDecode (if v = .floatContinuous then .a else .b) k raw ∧
      expandPseudo v (.measDecode ws) = .measDecode (if v = .floatContinuous then .float else .fixed) ws
end

