-- ==== Sys2Proof/Laws/State.lean ====
section
/-! SUPPORT. What each named update of State does to each field: one lemma per field per update, and the draws that a
state will use after it. -/

namespace Sys2Proof.Machine

/-! ### `State.tick` -/

@[simp] theorem State.tick_session (s : State) : s.tick.session = s.session := rfl
@[simp] theorem State.tick_readyAt (s : State) : s.tick.readyAt = s.readyAt := rfl
@[simp] theorem State.tick_phase (s : State) : s.tick.phase = s.phase := rfl
@[simp] theorem State.tick_stepIndex (s : State) : s.tick.stepIndex = s.stepIndex := rfl
@[simp] theorem State.tick_cur (s : State) : s.tick.cur = s.cur := rfl
@[simp] theorem State.tick_txbuf (s : State) : s.tick.txbuf = s.txbuf := rfl
@[simp] theorem State.tick_rxbuf (s : State) : s.tick.rxbuf = s.rxbuf := rfl
@[simp] theorem State.tick_resp (s : State) : s.tick.resp = s.resp := rfl
@[simp] theorem State.tick_now (s : State) : s.tick.now = s.now + (s.drawAt 0).delay := rfl
@[simp] theorem State.tick_params (s : State) : s.tick.params = s.params := rfl
@[simp] theorem State.tick_txWritten (s : State) : s.tick.txWritten = s.txWritten := rfl
@[simp] theorem State.tick_rxWritten (s : State) : s.tick.rxWritten = s.rxWritten := rfl
@[simp] theorem State.tick_words (s : State) : s.tick.words = s.words := rfl
@[simp] theorem State.tick_data (s : State) : s.tick.data = s.data := rfl
@[simp] theorem State.tick_failed (s : State) : s.tick.failed = s.failed := rfl
@[simp] theorem State.tick_inputs (s : State) : s.tick.inputs = s.inputs := rfl
@[simp] theorem State.tick_draws (s : State) : s.tick.draws = s.draws.drop 1 := rfl
@[simp] theorem State.tick_drawn (s : State) : s.tick.drawn = s.drawn + 1 := rfl
@[simp] theorem State.tick_busLog (s : State) : s.tick.busLog = s.busLog := rfl
@[simp] theorem State.tick_taken (s : State) : s.tick.taken = s.taken := rfl

/-! ### `State.onReset` -/

@[simp] theorem State.onReset_session (s : State) : s.onReset.session = .stopped := rfl
@[simp] theorem State.onReset_readyAt (s : State) : s.onReset.readyAt = 0 := rfl
@[simp] theorem State.onReset_phase (s : State) : s.onReset.phase = .idle := rfl
@[simp] theorem State.onReset_stepIndex (s : State) : s.onReset.stepIndex = 0 := rfl
@[simp] theorem State.onReset_cur (s : State) : s.onReset.cur = Config.requestAfterReset (s.drawn + 1) := rfl
@[simp] theorem State.onReset_txbuf (s : State) :
    s.onReset.txbuf = (Config.txbufAfterReset (s.drawn + 1)).take 258 := rfl
@[simp] theorem State.onReset_rxbuf (s : State) :
    s.onReset.rxbuf = (Config.rxbufAfterReset (s.drawn + 1)).take 18 := rfl
@[simp] theorem State.onReset_resp (s : State) : s.onReset.resp = [] := rfl
@[simp] theorem State.onReset_now (s : State) : s.onReset.now = s.now := rfl
@[simp] theorem State.onReset_params (s : State) : s.onReset.params = s.params := rfl
@[simp] theorem State.onReset_txWritten (s : State) : s.onReset.txWritten = false := rfl
@[simp] theorem State.onReset_rxWritten (s : State) : s.onReset.rxWritten = false := rfl
@[simp] theorem State.onReset_words (s : State) : s.onReset.words = [] := rfl
@[simp] theorem State.onReset_data (s : State) : s.onReset.data = [] := rfl
@[simp] theorem State.onReset_failed (s : State) : s.onReset.failed = none := rfl
@[simp] theorem State.onReset_inputs (s : State) : s.onReset.inputs = s.inputs := rfl
@[simp] theorem State.onReset_draws (s : State) : s.onReset.draws = s.draws := rfl
@[simp] theorem State.onReset_drawn (s : State) : s.onReset.drawn = s.drawn + 1 := rfl
@[simp] theorem State.onReset_busLog (s : State) : s.onReset.busLog = s.busLog := rfl
@[simp] theorem State.onReset_taken (s : State) : s.onReset.taken = s.taken := rfl

/-! ### `State.begin` -/

@[simp] theorem State.begin_session (s : State) (i : Instr) : (s.begin i).session = s.session := rfl
@[simp] theorem State.begin_readyAt (s : State) (i : Instr) : (s.begin i).readyAt = s.readyAt := rfl
@[simp] theorem State.begin_phase (s : State) (i : Instr) : (s.begin i).phase = .exec := rfl
@[simp] theorem State.begin_stepIndex (s : State) (i : Instr) : (s.begin i).stepIndex = 0 := rfl
@[simp] theorem State.begin_cur (s : State) (i : Instr) : (s.begin i).cur = i := rfl
@[simp] theorem State.begin_txbuf (s : State) (i : Instr) : (s.begin i).txbuf = s.txbuf := rfl
@[simp] theorem State.begin_rxbuf (s : State) (i : Instr) : (s.begin i).rxbuf = s.rxbuf := rfl
@[simp] theorem State.begin_resp (s : State) (i : Instr) : (s.begin i).resp = s.resp := rfl
@[simp] theorem State.begin_now (s : State) (i : Instr) : (s.begin i).now = s.now := rfl
@[simp] theorem State.begin_params (s : State) (i : Instr) : (s.begin i).params = s.params := rfl
@[simp] theorem State.begin_txWritten (s : State) (i : Instr) : (s.begin i).txWritten = s.txWritten := rfl
@[simp] theorem State.begin_rxWritten (s : State) (i : Instr) : (s.begin i).rxWritten = s.rxWritten := rfl
@[simp] theorem State.begin_words (s : State) (i : Instr) : (s.begin i).words = [] := rfl
@[simp] theorem State.begin_data (s : State) (i : Instr) : (s.begin i).data = [] := rfl
@[simp] theorem State.begin_failed (s : State) (i : Instr) : (s.begin i).failed = none := rfl
@[simp] theorem State.begin_inputs (s : State) (i : Instr) : (s.begin i).inputs = s.inputs := rfl
@[simp] theorem State.begin_draws (s : State) (i : Instr) : (s.begin i).draws = s.draws := rfl
@[simp] theorem State.begin_drawn (s : State) (i : Instr) : (s.begin i).drawn = s.drawn := rfl
@[simp] theorem State.begin_busLog (s : State) (i : Instr) : (s.begin i).busLog = s.busLog := rfl
@[simp] theorem State.begin_taken (s : State) (i : Instr) : (s.begin i).taken = s.taken := rfl

/-! ### `State.respondWith` -/

@[simp] theorem State.respondWith_session (s : State) (f : List Byte) :
    (s.respondWith f).session = s.session := rfl
@[simp] theorem State.respondWith_readyAt (s : State) (f : List Byte) :
    (s.respondWith f).readyAt = s.readyAt := rfl
@[simp] theorem State.respondWith_phase (s : State) (f : List Byte) : (s.respondWith f).phase = .idle := rfl
@[simp] theorem State.respondWith_stepIndex (s : State) (f : List Byte) : (s.respondWith f).stepIndex = 0 := rfl
@[simp] theorem State.respondWith_cur (s : State) (f : List Byte) : (s.respondWith f).cur = s.cur := rfl
@[simp] theorem State.respondWith_txbuf (s : State) (f : List Byte) : (s.respondWith f).txbuf = s.txbuf := rfl
@[simp] theorem State.respondWith_rxbuf (s : State) (f : List Byte) : (s.respondWith f).rxbuf = s.rxbuf := rfl
@[simp] theorem State.respondWith_resp (s : State) (f : List Byte) : (s.respondWith f).resp = f := rfl
@[simp] theorem State.respondWith_now (s : State) (f : List Byte) : (s.respondWith f).now = s.now := rfl
@[simp] theorem State.respondWith_params (s : State) (f : List Byte) : (s.respondWith f).params = s.params := rfl
@[simp] theorem State.respondWith_txWritten (s : State) (f : List Byte) :
    (s.respondWith f).txWritten = s.txWritten := rfl
@[simp] theorem State.respondWith_rxWritten (s : State) (f : List Byte) :
    (s.respondWith f).rxWritten = s.rxWritten := rfl
@[simp] theorem State.respondWith_words (s : State) (f : List Byte) : (s.respondWith f).words = [] := rfl
@[simp] theorem State.respondWith_data (s : State) (f : List Byte) : (s.respondWith f).data = [] := rfl
@[simp] theorem State.respondWith_failed (s : State) (f : List Byte) : (s.respondWith f).failed = none := rfl
@[simp] theorem State.respondWith_inputs (s : State) (f : List Byte) : (s.respondWith f).inputs = s.inputs := rfl
@[simp] theorem State.respondWith_draws (s : State) (f : List Byte) : (s.respondWith f).draws = s.draws := rfl
@[simp] theorem State.respondWith_drawn (s : State) (f : List Byte) : (s.respondWith f).drawn = s.drawn := rfl
@[simp] theorem State.respondWith_busLog (s : State) (f : List Byte) : (s.respondWith f).busLog = s.busLog := rfl
@[simp] theorem State.respondWith_taken (s : State) (f : List Byte) : (s.respondWith f).taken = s.taken := rfl

/-! ### `State.advance` -/

@[simp] theorem State.advance_session (s : State) : s.advance.session = s.session := rfl
@[simp] theorem State.advance_readyAt (s : State) : s.advance.readyAt = s.readyAt := rfl
@[simp] theorem State.advance_phase (s : State) : s.advance.phase = s.phase := rfl
@[simp] theorem State.advance_stepIndex (s : State) : s.advance.stepIndex = s.stepIndex + 1 := rfl
@[simp] theorem State.advance_cur (s : State) : s.advance.cur = s.cur := rfl
@[simp] theorem State.advance_txbuf (s : State) : s.advance.txbuf = s.txbuf := rfl
@[simp] theorem State.advance_rxbuf (s : State) : s.advance.rxbuf = s.rxbuf := rfl
@[simp] theorem State.advance_resp (s : State) : s.advance.resp = s.resp := rfl
@[simp] theorem State.advance_now (s : State) : s.advance.now = s.now := rfl
@[simp] theorem State.advance_params (s : State) : s.advance.params = s.params := rfl
@[simp] theorem State.advance_txWritten (s : State) : s.advance.txWritten = s.txWritten := rfl
@[simp] theorem State.advance_rxWritten (s : State) : s.advance.rxWritten = s.rxWritten := rfl
@[simp] theorem State.advance_words (s : State) : s.advance.words = s.words := rfl
@[simp] theorem State.advance_data (s : State) : s.advance.data = s.data := rfl
@[simp] theorem State.advance_failed (s : State) : s.advance.failed = s.failed := rfl
@[simp] theorem State.advance_inputs (s : State) : s.advance.inputs = s.inputs := rfl
@[simp] theorem State.advance_draws (s : State) : s.advance.draws = s.draws := rfl
@[simp] theorem State.advance_drawn (s : State) : s.advance.drawn = s.drawn := rfl
@[simp] theorem State.advance_busLog (s : State) : s.advance.busLog = s.busLog := rfl
@[simp] theorem State.advance_taken (s : State) : s.advance.taken = s.taken := rfl

/-! ### `State.failWith` -/

@[simp] theorem State.failWith_session (s : State) (f : Failure) : (s.failWith f).session = s.session := rfl
@[simp] theorem State.failWith_readyAt (s : State) (f : Failure) : (s.failWith f).readyAt = s.readyAt := rfl
@[simp] theorem State.failWith_phase (s : State) (f : Failure) : (s.failWith f).phase = s.phase := rfl
@[simp] theorem State.failWith_stepIndex (s : State) (f : Failure) :
    (s.failWith f).stepIndex = s.stepIndex + 1 := rfl
@[simp] theorem State.failWith_cur (s : State) (f : Failure) : (s.failWith f).cur = s.cur := rfl
@[simp] theorem State.failWith_txbuf (s : State) (f : Failure) : (s.failWith f).txbuf = s.txbuf := rfl
@[simp] theorem State.failWith_rxbuf (s : State) (f : Failure) : (s.failWith f).rxbuf = s.rxbuf := rfl
@[simp] theorem State.failWith_resp (s : State) (f : Failure) : (s.failWith f).resp = s.resp := rfl
@[simp] theorem State.failWith_now (s : State) (f : Failure) : (s.failWith f).now = s.now := rfl
@[simp] theorem State.failWith_params (s : State) (f : Failure) : (s.failWith f).params = s.params := rfl
@[simp] theorem State.failWith_txWritten (s : State) (f : Failure) : (s.failWith f).txWritten = s.txWritten := rfl
@[simp] theorem State.failWith_rxWritten (s : State) (f : Failure) : (s.failWith f).rxWritten = s.rxWritten := rfl
@[simp] theorem State.failWith_words (s : State) (f : Failure) : (s.failWith f).words = s.words := rfl
@[simp] theorem State.failWith_data (s : State) (f : Failure) : (s.failWith f).data = s.data := rfl
@[simp] theorem State.failWith_failed (s : State) (f : Failure) :
    (s.failWith f).failed = some { failure := f, atStep := s.stepIndex } := rfl
@[simp] theorem State.failWith_inputs (s : State) (f : Failure) : (s.failWith f).inputs = s.inputs := rfl
@[simp] theorem State.failWith_draws (s : State) (f : Failure) : (s.failWith f).draws = s.draws := rfl
@[simp] theorem State.failWith_drawn (s : State) (f : Failure) : (s.failWith f).drawn = s.drawn := rfl
@[simp] theorem State.failWith_busLog (s : State) (f : Failure) : (s.failWith f).busLog = s.busLog := rfl
@[simp] theorem State.failWith_taken (s : State) (f : Failure) : (s.failWith f).taken = s.taken := rfl

/-! ### `State.logAccess` -/

@[simp] theorem State.logAccess_session (s : State) (k : BusKind) (n : Nat) (b : List Byte) (e : BusEnd) :
    (s.logAccess k n b e).session = s.session := rfl
@[simp] theorem State.logAccess_readyAt (s : State) (k : BusKind) (n : Nat) (b : List Byte) (e : BusEnd) :
    (s.logAccess k n b e).readyAt = s.readyAt := rfl
@[simp] theorem State.logAccess_phase (s : State) (k : BusKind) (n : Nat) (b : List Byte) (e : BusEnd) :
    (s.logAccess k n b e).phase = s.phase := rfl
@[simp] theorem State.logAccess_stepIndex (s : State) (k : BusKind) (n : Nat) (b : List Byte) (e : BusEnd) :
    (s.logAccess k n b e).stepIndex = s.stepIndex := rfl
@[simp] theorem State.logAccess_cur (s : State) (k : BusKind) (n : Nat) (b : List Byte) (e : BusEnd) :
    (s.logAccess k n b e).cur = s.cur := rfl
@[simp] theorem State.logAccess_txbuf (s : State) (k : BusKind) (n : Nat) (b : List Byte) (e : BusEnd) :
    (s.logAccess k n b e).txbuf = s.txbuf := rfl
@[simp] theorem State.logAccess_rxbuf (s : State) (k : BusKind) (n : Nat) (b : List Byte) (e : BusEnd) :
    (s.logAccess k n b e).rxbuf = s.rxbuf := rfl
@[simp] theorem State.logAccess_resp (s : State) (k : BusKind) (n : Nat) (b : List Byte) (e : BusEnd) :
    (s.logAccess k n b e).resp = s.resp := rfl
@[simp] theorem State.logAccess_now (s : State) (k : BusKind) (n : Nat) (b : List Byte) (e : BusEnd) :
    (s.logAccess k n b e).now = s.now := rfl
@[simp] theorem State.logAccess_params (s : State) (k : BusKind) (n : Nat) (b : List Byte) (e : BusEnd) :
    (s.logAccess k n b e).params = s.params := rfl
@[simp] theorem State.logAccess_txWritten (s : State) (k : BusKind) (n : Nat) (b : List Byte) (e : BusEnd) :
    (s.logAccess k n b e).txWritten = s.txWritten := rfl
@[simp] theorem State.logAccess_rxWritten (s : State) (k : BusKind) (n : Nat) (b : List Byte) (e : BusEnd) :
    (s.logAccess k n b e).rxWritten = s.rxWritten := rfl
@[simp] theorem State.logAccess_words (s : State) (k : BusKind) (n : Nat) (b : List Byte) (e : BusEnd) :
    (s.logAccess k n b e).words = s.words := rfl
@[simp] theorem State.logAccess_data (s : State) (k : BusKind) (n : Nat) (b : List Byte) (e : BusEnd) :
    (s.logAccess k n b e).data = s.data := rfl
@[simp] theorem State.logAccess_failed (s : State) (k : BusKind) (n : Nat) (b : List Byte) (e : BusEnd) :
    (s.logAccess k n b e).failed = s.failed := rfl
@[simp] theorem State.logAccess_inputs (s : State) (k : BusKind) (n : Nat) (b : List Byte) (e : BusEnd) :
    (s.logAccess k n b e).inputs = s.inputs := rfl
@[simp] theorem State.logAccess_draws (s : State) (k : BusKind) (n : Nat) (b : List Byte) (e : BusEnd) :
    (s.logAccess k n b e).draws = s.draws := rfl
@[simp] theorem State.logAccess_drawn (s : State) (k : BusKind) (n : Nat) (b : List Byte) (e : BusEnd) :
    (s.logAccess k n b e).drawn = s.drawn := rfl
@[simp] theorem State.logAccess_busLog (s : State) (k : BusKind) (n : Nat) (b : List Byte) (e : BusEnd) :
    (s.logAccess k n b e).busLog = s.busLog ++ [{ kind := k, addr := s.params.addr, len := n, bytes := b, time := s.now, deadline := s.readyAt, outcome := e }] := rfl
@[simp] theorem State.logAccess_taken (s : State) (k : BusKind) (n : Nat) (b : List Byte) (e : BusEnd) :
    (s.logAccess k n b e).taken = s.taken := rfl

/-! ### `State.dropInput` -/

@[simp] theorem State.dropInput_session (s : State) : s.dropInput.session = s.session := rfl
@[simp] theorem State.dropInput_readyAt (s : State) : s.dropInput.readyAt = s.readyAt := rfl
@[simp] theorem State.dropInput_phase (s : State) : s.dropInput.phase = s.phase := rfl
@[simp] theorem State.dropInput_stepIndex (s : State) : s.dropInput.stepIndex = s.stepIndex := rfl
@[simp] theorem State.dropInput_cur (s : State) : s.dropInput.cur = s.cur := rfl
@[simp] theorem State.dropInput_txbuf (s : State) : s.dropInput.txbuf = s.txbuf := rfl
@[simp] theorem State.dropInput_rxbuf (s : State) : s.dropInput.rxbuf = s.rxbuf := rfl
@[simp] theorem State.dropInput_resp (s : State) : s.dropInput.resp = s.resp := rfl
@[simp] theorem State.dropInput_now (s : State) : s.dropInput.now = s.now := rfl
@[simp] theorem State.dropInput_params (s : State) : s.dropInput.params = s.params := rfl
@[simp] theorem State.dropInput_txWritten (s : State) : s.dropInput.txWritten = s.txWritten := rfl
@[simp] theorem State.dropInput_rxWritten (s : State) : s.dropInput.rxWritten = s.rxWritten := rfl
@[simp] theorem State.dropInput_words (s : State) : s.dropInput.words = s.words := rfl
@[simp] theorem State.dropInput_data (s : State) : s.dropInput.data = s.data := rfl
@[simp] theorem State.dropInput_failed (s : State) : s.dropInput.failed = s.failed := rfl
@[simp] theorem State.dropInput_inputs (s : State) : s.dropInput.inputs = s.inputs.tail := rfl
@[simp] theorem State.dropInput_draws (s : State) : s.dropInput.draws = s.draws := rfl
@[simp] theorem State.dropInput_drawn (s : State) : s.dropInput.drawn = s.drawn := rfl
@[simp] theorem State.dropInput_busLog (s : State) : s.dropInput.busLog = s.busLog := rfl
@[simp] theorem State.dropInput_taken (s : State) : s.dropInput.taken = s.taken := rfl

/-! ### Draws -/

/-- Using m draws shifts the draw numbers by m. -/
theorem drawFrom_drop (l : List Draw) (m n k : Nat) : drawFrom (l.drop m) (n + m) k = drawFrom l n (m + k) := by
  simp [drawFrom, Nat.add_assoc]

/-- Using one draw shifts the draw numbers by one. -/
theorem drawFrom_tail (l : List Draw) (n k : Nat) : drawFrom l.tail (n + 1) k = drawFrom l n (1 + k) := by
  simp [drawFrom, Nat.add_assoc, Nat.add_comm 1 k]

/-- A draw depends only on the fixed draws left and the number used. -/
theorem State.drawAt_congr {s t : State} (hd : s.draws = t.draws) (hn : s.drawn = t.drawn) (k : Nat) :
    s.drawAt k = t.drawAt k := by
  simp [State.drawAt, hd, hn]

@[simp] theorem State.drawAt_tick (s : State) (k : Nat) : s.tick.drawAt k = s.drawAt (k + 1) := by
  simpa [State.drawAt, Nat.add_comm 1 k] using drawFrom_tail s.draws s.drawn k

@[simp] theorem State.drawAt_begin (s : State) (i : Instr) (k : Nat) : (s.begin i).drawAt k = s.drawAt k := rfl
@[simp] theorem State.drawAt_advance (s : State) (k : Nat) : s.advance.drawAt k = s.drawAt k := rfl
@[simp] theorem State.drawAt_failWith (s : State) (f : Failure) (k : Nat) : (s.failWith f).drawAt k = s.drawAt k := rfl
@[simp] theorem State.drawAt_dropInput (s : State) (k : Nat) : s.dropInput.drawAt k = s.drawAt k := rfl
@[simp] theorem State.drawAt_respondWith (s : State) (f : List Byte) (k : Nat) :
    (s.respondWith f).drawAt k = s.drawAt k := rfl
@[simp] theorem State.drawAt_logAccess (s : State) (b : BusKind) (n : Nat) (d : List Byte) (e : BusEnd) (k : Nat) :
    (s.logAccess b n d e).drawAt k = s.drawAt k := rfl

/-! ### Times -/

@[simp] theorem State.clock_zero (s : State) : s.clock 0 = s.now := rfl
theorem State.clock_succ (s : State) (k : Nat) : s.clock (k + 1) = s.clock k + (s.drawAt k).delay := rfl

/-- The clock never runs back. -/
theorem State.now_le_clock (s : State) (k : Nat) : s.now ≤ s.clock k := by
  induction k with
  | zero => exact le_rfl
  | succ k ih => exact ih.trans (Nat.le_add_right _ _)

end Sys2Proof.Machine
end

