-- ==== Sys2Proof/Laws/Units.lean ====
section
/-! SUPPORT. The pure functions' own small lemmas: Byte order, CRC, framing, conversion. -/

namespace Sys2Proof.Machine

/-! ### Byte order -/

@[simp] theorem word_hi_lo (w : Word) : word (hi w) (lo w) = w := by
  apply BitVec.eq_of_toNat_eq
  have := w.isLt
  simp only [word, hi, lo, BitVec.toNat_append, BitVec.extractLsb'_toNat]
  rw [← Nat.shiftLeft_add_eq_or_of_lt (Nat.mod_lt _ (by decide))]
  simp only [Nat.shiftLeft_eq, Nat.shiftRight_eq_div_pow]
  omega

@[simp] theorem hi_word (a b : Byte) : hi (word a b) = a := by
  apply BitVec.eq_of_toNat_eq
  have := a.isLt
  have := b.isLt
  simp only [word, hi, BitVec.toNat_append, BitVec.extractLsb'_toNat]
  rw [← Nat.shiftLeft_add_eq_or_of_lt b.isLt]
  simp only [Nat.shiftLeft_eq, Nat.shiftRight_eq_div_pow]
  omega

@[simp] theorem lo_word (a b : Byte) : lo (word a b) = b := by
  apply BitVec.eq_of_toNat_eq
  have := a.isLt
  have := b.isLt
  simp only [word, lo, BitVec.toNat_append, BitVec.extractLsb'_toNat]
  rw [← Nat.shiftLeft_add_eq_or_of_lt b.isLt]
  simp only [Nat.shiftLeft_eq, Nat.shiftRight_eq_div_pow]
  omega

@[simp] theorem be16_length (w : Word) : (be16 w).length = 2 := rfl
@[simp] theorem be32_length (v : Pattern) : (be32 v).length = 4 := rfl
@[simp] theorem be64_length (x : Nat) : (be64 x).length = 8 := rfl
@[simp] theorem lengthField_length (n : Nat) : (lengthField n).length = 2 := rfl

@[simp] theorem wordBytes_nil : wordBytes [] = [] := rfl
@[simp] theorem wordBytes_cons (w : Word) (ws : List Word) : wordBytes (w :: ws) = hi w :: lo w :: wordBytes ws := rfl

@[simp] theorem wordBytes_length (ws : List Word) : (wordBytes ws).length = 2 * ws.length := by
  induction ws with
  | nil => rfl
  | cons w ws ih => simp [ih]; omega

/-! ### CRC -/

@[simp] theorem crcFrom_nil (c : Byte) : crcFrom c [] = c := rfl
@[simp] theorem crcFrom_cons (c b : Byte) (d : List Byte) : crcFrom c (b :: d) = crcFrom (crcByte c b) d := rfl

/-- The register after two spans is the register of the second from that of the first. -/
theorem crcFrom_append (c : Byte) (a b : List Byte) : crcFrom c (a ++ b) = crcFrom (crcFrom c a) b := by
  simp [crcFrom]

/-- `verify` says whether the CRC matches. -/
theorem verify_eq_true (d : List Byte) (c : Byte) : verify d c = true ↔ crc8 d = c := by
  simp [verify]

/-! ### Framing -/

/-- The words of a successful decode are as many as the groups asked for. -/
theorem decodeWords_length {raw : List Byte} {k : Nat} {ws : List Word} (h : decodeWords raw k = some ws) :
    ws.length = k := by
  induction raw, k using decodeWords.induct generalizing ws with
  | case1 => simp_all [decodeWords]
  | case2 a b c rest k hv ih =>
    simp only [decodeWords, hv, if_true] at h
    obtain ⟨vs, hvs, rfl⟩ := Option.map_eq_some_iff.mp h
    simp [ih hvs]
  | case3 a b c rest k hv => simp [decodeWords, hv] at h
  | case4 => simp_all [decodeWords]

/-! ### Conversion -/

/-- A float measurement's conversion. -/
theorem measDecode_float (u0 u1 u2 u3 u4 u5 : Word) :
    measDecode .float [u0, u1, u2, u3, u4, u5] = some (.floatMeas (u0 ++ u1) (u2 ++ u3) (u4 ++ u5)) := rfl

/-- A fixed-point measurement's conversion. -/
theorem measDecode_fixed (w0 w1 w2 : Word) :
    measDecode .fixed [w0, w1, w2] = some (.fixedMeas w0 (tempNumerator w1) (humNumerator w2)) := rfl

/-- `meas_decode` fails for no word count that its rule takes (R120). -/
theorem measDecode_isSome {r : DecodeRule} {ws : List Word} (h : ws.length = r.wordCount) :
    (measDecode r ws).isSome = true := by
  cases r with
  | float =>
    match ws, h with
    | [_, _, _, _, _, _], _ => rfl
  | fixed =>
    match ws, h with
    | [_, _, _], _ => rfl

end Sys2Proof.Machine
end

