-- ==== Sys2Proof/Laws/Ops.lean ====
section
/-! SUPPORT. For each shared operation of the sequencer, one lemma that says once everything it can do. -/

namespace Sys2Proof.Machine

/-! ### One micro-step -/

/-- A micro-step is RESET where its draw says so, else its effect after the boundary. -/
theorem runAct_cases (a : Act) (s : State) :
    ((s.drawAt 0).reset = true ∧ runAct a s = (abandon a s.tick).onReset) ∨
      ((s.drawAt 0).reset = false ∧ runAct a s = perform a (s.drawAt 0) s.tick) := by
  cases h : (s.drawAt 0).reset <;> simp [runAct, h]

theorem runAct_of_quiet {a : Act} {s : State} (h : (s.drawAt 0).reset = false) :
    runAct a s = perform a (s.drawAt 0) s.tick := by
  simp [runAct, h]

theorem runAct_of_reset {a : Act} {s : State} (h : (s.drawAt 0).reset = true) :
    runAct a s = (abandon a s.tick).onReset := by
  simp [runAct, h]

/-! ### The bus -/

/-- A read delivers exactly the Bytes asked for (20_memory.md R54). -/
@[simp] theorem readBytes_length (d : Draw) (i n : Nat) : (readBytes d i n).length = n := by
  simp [readBytes]

/-- What a WRITE can do (R131). -/
theorem busWrite_cases (c : CmdName) (t : Nat) (d : Draw) (s : State) :
    (d.ok = true ∧ busWrite c t d s =
        { s.logAccess .write s.txbuf.length s.txbuf .ok with
          readyAt := s.now + settling s.params c, stepIndex := s.stepIndex + 1 }) ∨
      (d.ok = false ∧
        busWrite c t d s = (s.logAccess .write s.txbuf.length s.txbuf .fail).failWith (writeFailure t)) := by
  cases h : d.ok
  · right
    simp [busWrite, h]
  · left
    simp only [busWrite, h, if_true, true_and]
    rfl

/-- What a READ can do (R131). -/
theorem busRead_cases (n t : Nat) (d : Draw) (s : State) :
    (d.ok = true ∧ busRead n t d s =
        { s.logAccess .read n (readBytes d s.drawn n) .ok with
          rxbuf := readBytes d s.drawn n, rxWritten := true, stepIndex := s.stepIndex + 1 }) ∨
      (d.ok = false ∧ busRead n t d s = (s.logAccess .read n [] .fail).failWith (readFailure t)) := by
  cases h : d.ok
  · right
    simp [busRead, h]
  · left
    simp only [busRead, h, if_true, true_and]
    rfl

/-! ### ACCEPT, COMPUTE, WAIT -/

/-- What ACCEPT can do, in the order of its checks (R130, R177). -/
theorem acceptChecks_cases (needs : List CmdName) (allowed : List Session) (e : WrongSession) (s : State) :
    ((∃ c ∈ needs, commandWord s.params c = none) ∧ acceptChecks needs allowed e s = s.raise unsupported) ∨
      ((∀ c ∈ needs, commandWord s.params c ≠ none) ∧
        ((s.session ∉ allowed ∧
            ((e = .alreadyRunning ∧ acceptChecks needs allowed e s = s.respondWith [statusAlreadyRunning]) ∨
              (e = .wrongState ∧ acceptChecks needs allowed e s = s.raise wrongState))) ∨
          (s.session ∈ allowed ∧
            ((s.params.policy = .report ∧ s.now < s.readyAt ∧
                acceptChecks needs allowed e s = s.raise timingViolation) ∨
              ((s.params.policy = .report → s.readyAt ≤ s.now) ∧
                acceptChecks needs allowed e s = s.advance))))) := by
  by_cases hn : ∃ c ∈ needs, commandWord s.params c = none
  · left
    refine ⟨hn, ?_⟩
    simp [acceptChecks, hn]
  · right
    have hn' : ∀ c ∈ needs, commandWord s.params c ≠ none := by
      intro c hc he
      exact hn ⟨c, hc, he⟩
    refine ⟨hn', ?_⟩
    by_cases hs : s.session ∈ allowed
    · right
      refine ⟨hs, ?_⟩
      by_cases ht : s.params.policy = .report ∧ s.now < s.readyAt
      · left
        refine ⟨ht.1, ht.2, ?_⟩
        simp [acceptChecks, hn, hs, ht]
      · right
        refine ⟨fun hp => Nat.le_of_not_lt fun hlt => ht ⟨hp, hlt⟩, ?_⟩
        simp [acceptChecks, hn, hs, ht]
    · left
      refine ⟨hs, ?_⟩
      cases e <;> simp [acceptChecks, hn, hs]

/-- What encoding into TXBUF can do (R131). -/
theorem loadFrame_cases (c : CmdName) (p : List Byte) (s : State) :
    (∃ w, commandWord s.params c = some w ∧ loadFrame c p s =
        { s with txbuf := s.frame w p, txWritten := true, stepIndex := s.stepIndex + 1 }) ∨
      (commandWord s.params c = none ∧ loadFrame c p s = s.raise unsupported) := by
  cases h : commandWord s.params c with
  | none => exact .inr ⟨rfl, by simp [loadFrame, h]⟩
  | some w =>
    refine .inl ⟨w, rfl, ?_⟩
    simp only [loadFrame, h]
    rfl

/-- What checking a response can do (R112, R131). -/
theorem decodeInto_cases (raw : List Byte) (k t : Nat) (s : State) :
    (∃ ws, decodeWords raw k = some ws ∧ decodeInto raw k t s =
        { s with words := ws, stepIndex := s.stepIndex + 1 }) ∨
      (decodeWords raw k = none ∧ decodeInto raw k t s = s.failWith (checksumFailure t)) := by
  cases h : decodeWords raw k with
  | none => exact .inr ⟨rfl, by simp [decodeInto, h]⟩
  | some ws =>
    refine .inl ⟨ws, rfl, ?_⟩
    simp only [decodeInto, h]
    rfl

/-- A WAIT changes NOW and STEP only, and leaves NOW at READY_AT or later (R27, R131). -/
theorem waitReady_spec (s : State) :
    waitReady s = { s with now := (waitReady s).now, stepIndex := s.stepIndex + 1 } ∧
      s.readyAt ≤ (waitReady s).now ∧ s.now ≤ (waitReady s).now :=
  ⟨rfl, Nat.le_max_right _ _, Nat.le_max_left _ _⟩

/-! ### Sequences -/

/-- Running the lines of a rule, one line at a time. -/
theorem runLines_cons (l : Line) (rest : List Line) (s : State) :
    runLines (l :: rest) s = afterLine l.onError (runLines rest) (runAct l.act s) := rfl

/-- Running micro-steps, one at a time. -/
theorem runActs_cons (a : Act) (rest : List Act) (s : State) :
    runActs (a :: rest) s = afterAct (runActs rest) (runAct a s) := rfl

/-- What follows a line (R178). -/
theorem afterLine_cases (onError : List Act) (next : State → State) (s : State) :
    (s.phase = .idle ∧ afterLine onError next s = s) ∨
      (s.phase = .exec ∧ s.failed ≠ none ∧ afterLine onError next s = runActs onError s) ∨
      (s.phase = .exec ∧ s.failed = none ∧ afterLine onError next s = next s) := by
  cases hp : s.phase with
  | idle => exact .inl ⟨rfl, by simp [afterLine, hp]⟩
  | exec =>
    cases hf : s.failed with
    | none => exact .inr (.inr ⟨rfl, rfl, by simp [afterLine, hp, hf]⟩)
    | some f => exact .inr (.inl ⟨rfl, by simp, by simp [afterLine, hp, hf]⟩)

/-- What follows a micro-step. -/
theorem afterAct_cases (next : State → State) (s : State) :
    (s.phase = .idle ∧ afterAct next s = s) ∨ (s.phase = .exec ∧ afterAct next s = next s) := by
  cases hp : s.phase with
  | idle => exact .inl ⟨rfl, by simp [afterAct, hp]⟩
  | exec => exact .inr ⟨rfl, by simp [afterAct, hp]⟩

/-- A property that every micro-step keeps is kept by a sequence of them. -/
theorem runActs_induction {P : State → Prop} (acts : List Act) (s : State)
    (step : ∀ a ∈ acts, ∀ u, P u → P (runAct a u)) (h : P s) : P (runActs acts s) := by
  induction acts generalizing s with
  | nil => exact h
  | cons a rest ih =>
    have ha := step a (by simp) s h
    rw [runActs_cons]
    rcases afterAct_cases (runActs rest) (runAct a s) with ⟨_, e⟩ | ⟨_, e⟩ <;> rw [e]
    · exact ha
    · exact ih _ (fun b hb => step b (by simp [hb])) ha

/-- A property that every micro-step of a rule keeps is kept by the whole operation. -/
theorem runLines_induction {P : State → Prop} (lines : List Line) (s : State)
    (step : ∀ l ∈ lines, ∀ a ∈ l.act :: l.onError, ∀ u, P u → P (runAct a u)) (h : P s) : P (runLines lines s) := by
  induction lines generalizing s with
  | nil => exact h
  | cons l rest ih =>
    have ha := step l (by simp) l.act (by simp) s h
    rw [runLines_cons]
    rcases afterLine_cases l.onError (runLines rest) (runAct l.act s) with ⟨_, e⟩ | ⟨_, _, e⟩ | ⟨_, _, e⟩ <;> rw [e]
    · exact ha
    · exact runActs_induction _ _ (fun a hm => step l (by simp) a (by simp [hm])) ha
    · exact ih _ (fun m hm => step m (by simp [hm])) ha

/-- The outcome of an operation is always a next state: its lines run from its ACCEPT. -/
theorem operate_eq (i : Instr) (rule : Params → List Line) (s : State) :
    operate i rule s = .next (runLines (rule s.params) (s.begin i)) := rfl

end Sys2Proof.Machine
end

