-- ==== Sys2Proof/Laws/PerInstr.lean ====
section
/-! SUPPORT. Facts stated for each operation: the length of its request frame (20_memory.md R50). -/

namespace Sys2Proof.Laws.RequestLength

open Machine

/-- The request of a well-formed operation has 1 to 767 Bytes (R50). -/
def Statement (i : Instr) : Prop := i.wf = true → 1 ≤ (encode i).length ∧ (encode i).length ≤ 767

/-- A span that fits N has at most 255 Bytes. -/
theorem span_le {d : List Byte} (h : spanFits d = true) : d.length ≤ 255 := by simpa [spanFits] using h

theorem crcCompute (data : List Byte) : Statement (.crcCompute data) := by
  intro h
  have := span_le h
  simp only [encode, Instr.operandBytes, List.length_cons]
  omega

theorem crcVerify (data : List Byte) (c : Byte) : Statement (.crcVerify data c) := by
  intro h
  have := span_le h
  simp only [encode, Instr.operandBytes, List.length_cons, List.length_append, List.length_nil]
  omega

theorem frameEncode (d : Dialect) (cmd : Word) (payload : List Byte) : Statement (.frameEncode d cmd payload) := by
  intro h
  have := span_le h
  simp only [encode, Instr.operandBytes, List.length_cons, List.length_append, be16_length]
  omega

theorem frameDecode (d : Dialect) (k : Byte) (raw : List Byte) : Statement (.frameDecode d k raw) := by
  intro h
  have hk := k.isLt
  have hr : raw.length = 3 * k.toNat := by simpa [Instr.wf, groupsMatch] using h
  simp only [encode, Instr.operandBytes, List.length_cons]
  omega

theorem measDecode (r : DecodeRule) (ws : List Word) : Statement (.measDecode r ws) := by
  intro h
  have hw : ws.length = r.wordCount := by simpa [Instr.wf, wordsMatch] using h
  have hr : r.wordCount ≤ 6 := by cases r <;> decide
  simp only [encode, Instr.operandBytes, List.length_cons, wordBytes_length]
  omega

theorem startPeriodic (payload : List Byte) : Statement (.startPeriodic payload) := by
  intro h
  have := span_le h
  simp only [encode, Instr.operandBytes, List.length_cons]
  omega

theorem stopPeriodic : Statement .stopPeriodic := fun _ => by decide
theorem dataReady : Statement .dataReady := fun _ => by decide
theorem readMeasurement : Statement .readMeasurement := fun _ => by decide
theorem singleShot : Statement .singleShot := fun _ => by decide
theorem factoryReset : Statement .factoryReset := fun _ => by decide
theorem status : Statement .status := fun _ => by decide
theorem setAltitude (w : Word) : Statement (.setAltitude w) := fun _ => by simp [encode, Instr.operandBytes]
theorem getAltitude : Statement .getAltitude := fun _ => by decide
theorem setTempOffset (w : Word) : Statement (.setTempOffset w) := fun _ => by simp [encode, Instr.operandBytes]
theorem getTempOffset : Statement .getTempOffset := fun _ => by decide
theorem setAutoCal (w : Word) : Statement (.setAutoCal w) := fun _ => by simp [encode, Instr.operandBytes]

end Sys2Proof.Laws.RequestLength
end

