-- ==== Sys2Proof/Laws/Run.lean ====
section
/-! SUPPORT. What the ports of an idle block, one step, and the run of a host program can do, said once each. -/

namespace Sys2Proof.Machine

/-! ### The ports -/

/-- Taking what is pending: nothing, or the response moves to `taken` (10_state.md R31). -/
theorem takePending_cases (s : State) :
    (s.resp = [] ∧ takePending s = s) ∨ (s.resp ≠ [] ∧ takePending s = takeResponse s) := by
  cases h : s.resp <;> simp [takePending, h]

/-- After taking what is pending, no response is pending. -/
@[simp] theorem takePending_resp (s : State) : (takePending s).resp = [] := by
  rcases takePending_cases s with ⟨h, e⟩ | ⟨_, e⟩ <;> rw [e]
  · exact h
  · rfl

/-- Refusing a request is RESET where the draw says so, else an error response (70_reset_and_hazards.md R192). -/
theorem refuseRequest_cases (e : BadRequest) (s : State) :
    ((s.drawAt 0).reset = true ∧ refuseRequest e s = s.tick.onReset) ∨
      ((s.drawAt 0).reset = false ∧ refuseRequest e s = s.tick.raise (badRequestFailure e)) := by
  cases h : (s.drawAt 0).reset <;> simp [refuseRequest, h]

/-- Waiting for a request is RESET where the draw says so, else time passing. -/
theorem waitForRequest_cases (s : State) :
    ((s.drawAt 0).reset = true ∧ waitForRequest s = s.tick.onReset) ∨
      ((s.drawAt 0).reset = false ∧ waitForRequest s = s.tick) := by
  cases h : (s.drawAt 0).reset <;> simp [waitForRequest, h]

/-! ### One step -/

/-- Everything a step of an idle block can do. -/
theorem step_idle_cases {s : State} (h : s.phase = .idle) :
    (∃ more, s.inputs = .reset :: more ∧ step s = .next (resetIdle s)) ∨
      (s.resp ≠ [] ∧ step s = .next (takeResponse s)) ∨
      (s.resp = [] ∧
        ((∃ op rest more i, s.inputs = .request op rest :: more ∧ decodeRequest op rest = .ok i ∧
            step s = exec i s.dropInput) ∨
          (∃ op rest more e, s.inputs = .request op rest :: more ∧ decodeRequest op rest = .error e ∧
            step s = .next (refuseRequest e s.dropInput)) ∨
          (∃ ms more, s.inputs = .elapse ms :: more ∧ step s = .next (elapse ms s)) ∨
          (s.inputs = [] ∧ step s = .next (waitForRequest s)))) := by
  cases hi : s.inputs with
  | nil => cases hr : s.resp <;> simp [step, h, hi, hr]
  | cons a more =>
    cases a with
    | reset => cases hr : s.resp <;> simp [step, h, hi, hr]
    | elapse ms => cases hr : s.resp <;> simp [step, h, hi, hr]
    | request op rest => cases hr : s.resp <;> cases hd : decodeRequest op rest <;> simp [step, h, hi, hr, hd]

/-- A step inside an operation is one micro-step of it (R27). -/
theorem step_exec {s : State} (h : s.phase = .exec) : step s = resume s := by
  simp [step, h]

/-! ### The run of a host program -/

/-- When a run has ended (70_reset_and_hazards.md R201). -/
theorem State.runEnded_iff (s : State) :
    s.runEnded = true ↔ s.phase = .idle ∧ s.resp = [] ∧ ∀ i ∈ s.inputs, i.isRequest = false := by
  simp [State.runEnded, and_assoc]

@[simp] theorem runFor_zero (s : State) : runFor 0 s = .next s := rfl

/-- A run that has ended stays where it is. -/
theorem runFor_ended {s : State} (h : s.runEnded = true) (n : Nat) : runFor n s = .next s := by
  cases n <;> simp [runFor, h]

/-- A run that has not ended goes on with a step. -/
theorem runFor_step {s t : State} (h : s.runEnded = false) (hs : step s = .next t) (n : Nat) :
    runFor (n + 1) s = runFor n t := by
  simp [runFor, h, hs]

/-- A property that every step keeps is kept by a run. -/
theorem runFor_induction {P : State → Prop} (keeps : ∀ s t, P s → step s = .next t → P t) (n : Nat) {s t : State}
    (h : P s) (hr : runFor n s = .next t) : P t := by
  induction n generalizing s with
  | zero => cases hr; exact h
  | succ n ih =>
    cases he : s.runEnded
    · cases hs : step s with
      | next u => exact ih (keeps s u h hs) (by rwa [runFor_step he hs] at hr)
      | fault f => simp [runFor, he, hs] at hr
      | refused r => simp [runFor, he, hs] at hr
    · rw [runFor_ended he] at hr
      cases hr
      exact h

end Sys2Proof.Machine
end

