-- ==== Sys2Proof/Tests/Slice0.lean ====
section
/-! SUPPORT. Tests of single operations against the vectors of 95_test_vectors.md, and, for every statement with
hypotheses, a concrete state and operands that meet them all. -/

namespace Sys2Proof.Tests

open Machine

/-! ### Boards -/

/-- The example codes of the periodic family (93_implementation_defined.md GK3). -/
def periodicRow : CmdRow where
  startPeriodic := some 0x21B1
  stopPeriodic := some 0x3F86
  readMeasurement := some 0xEC05
  setTempOffset := some 0x241D
  setAltitude := some 0x2427
  setAutoCal := some 0x2416
  factoryReset := some 0x3632
  singleShot := some 0x219D
  dataReady := some 0xE4B8
  getTempOffset := some 0x2318
  getAltitude := some 0x2322

/-- The example codes of the continuous family (GK3). -/
def continuousRow : CmdRow where
  startPeriodic := some 0x0010
  stopPeriodic := some 0x0104
  readMeasurement := some 0x0300
  setTempOffset := some 0x5403
  setAltitude := some 0x5102
  setAutoCal := some 0x5306
  factoryReset := none
  singleShot := none
  dataReady := some 0x0202
  getTempOffset := some 0x5403
  getAltitude := some 0x5102

/-- The vectors' default instance (95_test_vectors.md). -/
def params : Params where
  variant := .fixedPointPeriodic
  addr := 0x62
  cfgAlt := 0
  cfgToff := 0
  cfgAsc := false
  cmd := { floatContinuous := continuousRow, fixedPointPeriodic := periodicRow }
  tStart := 1
  tStop := 500
  tReset := 1200
  tSingle := 5000
  tCmd := 1
  policy := .blockInCall

/-- A draw in which nothing happens: no time passes and a bus access is answered OK. -/
def quiet : Draw where
  delay := 0
  reset := false
  ok := true
  bytes := []

/-- The default board just after RESET, with sixteen quiet draws. -/
def board : State :=
  { State.initial params with cur := .status, txbuf := [], rxbuf := [], draws := List.replicate 16 quiet }

/-- The board with another session, deadline and time. -/
def boardAt (x : Session) (readyAt now : Nat) : State := { board with session := x, readyAt := readyAt, now := now }

/-- The same board with another k-th draw. -/
def withDraw (s : State) (k : Nat) (d : Draw) : State := { s with draws := s.draws.set k d }

/-- The bus read at draw k delivers these Bytes. -/
def reading (s : State) (k : Nat) (bytes : List Byte) : State := withDraw s k { quiet with bytes := bytes }

/-- The bus access at draw k fails. -/
def failing (s : State) (k : Nat) : State := withDraw s k { quiet with ok := false }

/-- The board under another policy. -/
def under (s : State) (p : WaitPolicy) : State := { s with params := { s.params with policy := p } }

/-- The board as a continuous instance. -/
def float (s : State) : State := { s with params := { s.params with variant := .floatContinuous, addr := 0x61 } }

/-- PERIODIC_RUNNING at the start. -/
def running : State := boardAt .periodicRunning 0 0

/-- What a vector's row shows of an operation: the response and its time, the end SESSION and READY_AT, and the bus
accesses with their times. -/
structure Row where
  resp : List Byte
  time : Nat
  session : Session
  readyAt : Nat
  bus : List (Nat × List Byte)
deriving DecidableEq

/-- The row that an outcome shows. -/
def shown : Host.Outcome State Fault Refusal → Option Row
  | .next t => some ⟨t.resp, t.now, t.session, t.readyAt, t.busLog.map fun b => (b.time, b.bytes)⟩
  | _ => none

/-- The response of an outcome. -/
def answer (o : Host.Outcome State Fault Refusal) : Option (List Byte) := (shown o).map Row.resp

/-! ### Well-formedness -/

theorem test_wf_refuses_long_span : (Instr.crcCompute (List.replicate 256 0)).wf = false := by decide +kernel
theorem test_wf_refuses_long_verify : (Instr.crcVerify (List.replicate 256 0) 0).wf = false := by decide +kernel
theorem test_wf_refuses_long_payload : (Instr.frameEncode .a 0 (List.replicate 256 0)).wf = false := by decide +kernel
theorem test_wf_refuses_long_start : (Instr.startPeriodic (List.replicate 256 0)).wf = false := by decide +kernel
theorem test_wf_refuses_bad_groups : (Instr.frameDecode .a 1 [0, 0]).wf = false := by decide
theorem test_wf_refuses_wrong_words : (Instr.measDecode .float [0, 0, 0]).wf = false := by decide
theorem test_wf_admits_longest_span : (Instr.crcCompute (List.replicate 255 0)).wf = true := by decide +kernel

/-! ### Decoding: the requests of 95_test_vectors.md, Byte for Byte -/

theorem test_decode_crcCompute : decode [0x01, 0x02, 0xBE, 0xEF] = .ok (.crcCompute [0xBE, 0xEF]) := by decide
theorem test_decode_crcVerify : decode [0x02, 0x02, 0x00, 0x00, 0x81] = .ok (.crcVerify [0x00, 0x00] 0x81) := by
  decide
theorem test_decode_frameEncode_a :
    decode [0x03, 0x51, 0x02, 0x02, 0x01, 0xF4] = .ok (.frameEncode .a 0x5102 [0x01, 0xF4]) := by decide
theorem test_decode_frameEncode_b : decode [0x13, 0xAB, 0xCD, 0x01, 0x01] = .ok (.frameEncode .b 0xABCD [0x01]) := by
  decide
theorem test_decode_frameDecode_a : decode [0x04, 0x00] = .ok (.frameDecode .a 0 []) := by decide
theorem test_decode_frameDecode_b :
    decode [0x14, 0x01, 0x00, 0x00, 0x81] = .ok (.frameDecode .b 1 [0x00, 0x00, 0x81]) := by decide
theorem test_decode_measDecode_float :
    decode [0x05, 0x43, 0xFA, 0x00, 0x00, 0x41, 0xC8, 0x00, 0x00, 0x42, 0x48, 0x00, 0x00] =
      .ok (.measDecode .float [0x43FA, 0x0000, 0x41C8, 0x0000, 0x4248, 0x0000]) := by decide
theorem test_decode_measDecode_fixed :
    decode [0x15, 0x01, 0xF4, 0x80, 0x00, 0x40, 0x00] = .ok (.measDecode .fixed [0x01F4, 0x8000, 0x4000]) := by
  decide
theorem test_decode_startPeriodic : decode [0x20, 0x02, 0x00, 0x01] = .ok (.startPeriodic [0x00, 0x01]) := by
  decide
theorem test_decode_stopPeriodic : decode [0x21] = .ok .stopPeriodic := by decide
theorem test_decode_dataReady : decode [0x22] = .ok .dataReady := by decide
theorem test_decode_readMeasurement : decode [0x23] = .ok .readMeasurement := by decide
theorem test_decode_singleShot : decode [0x24] = .ok .singleShot := by decide
theorem test_decode_factoryReset : decode [0x25] = .ok .factoryReset := by decide
theorem test_decode_status : decode [0x26] = .ok .status := by decide
theorem test_decode_setAltitude : decode [0x40, 0x01, 0xF4] = .ok (.setAltitude 0x01F4) := by decide
theorem test_decode_getAltitude : decode [0x41] = .ok .getAltitude := by decide
theorem test_decode_setTempOffset : decode [0x42, 0x0B, 0xB8] = .ok (.setTempOffset 0x0BB8) := by decide
theorem test_decode_getTempOffset : decode [0x43] = .ok .getTempOffset := by decide
theorem test_decode_setAutoCal : decode [0x44, 0x00, 0x01] = .ok (.setAutoCal 0x0001) := by decide

/-- The refused requests of vector table L2.6. -/
theorem test_decode_refuses :
    (∀ r ∈ ([[0x00], [0x06], [0x11, 0x00], [0x12, 0x00, 0xFF], [0x16], [0x27], [0x30], [0x45, 0x00, 0x00],
      [0x50, 0x01, 0xF4], [0x60], [0xFF], [0x00, 0x01, 0x02]] : List (List Byte)), decode r = .error .illegalOpcode) ∧
    (∀ r ∈ ([[0x21, 0x00], [0x20], [0x20, 0x01], [0x01], [0x01, 0x03, 0x00], [0x02, 0x02, 0x00, 0x00],
      [0x03, 0x12, 0x34], [0x14, 0x01, 0x00, 0x00], [0x15, 0x01, 0xF4, 0x80, 0x00], [0x26, 0x00], [0x40, 0x01]] :
        List (List Byte)), decode r = .error .malformedLength) := by decide

/-- A table word of eight bits is read with operand Bytes of zeros, as many as its format takes. -/
theorem test_tableWord : decodeTableWord 8 0x13 = some (.frameEncode .b 0 []) ∧
    decodeTableWord 8 0x15 = some (.measDecode .fixed [0, 0, 0]) ∧ decodeTableWord 8 0x42 = some (.setTempOffset 0) ∧
    decodeTableWord 32 0x34120201 = some (.crcCompute [0x12, 0x34]) ∧ decodeTableWord 8 0x27 = none := by decide

/-- The word placed by `withFetchWord` is what the next step runs. -/
theorem test_withFetchWord : step (State.reset.withFetchWord 8 0x26) =
    exec .status (State.reset.withFetchWord 8 0x26).dropInput := rfl

/-- A response that is pending is taken, not lost, before the word is presented. -/
theorem test_withFetchWord_takes : let s := { board with resp := [0x82, 0x01] }.withFetchWord 8 0x26
    s.resp = [] ∧ s.taken = [[0x82, 0x01]] := by decide

/-- A program of one request: the run ends when its response is taken (70_reset_and_hazards.md R201). -/
theorem test_runProgram :
    (runProgram [.request 0x23 []] board).map (fun e => (e.taken, e.resp, e.now)) = some ([[0x82, 0x01]], [], 0) := by
  decide

/-! ### Pure operations -/

theorem test_crc_vectors :
    (([[], [0x00], [0xFF], [0x80], [0xBE, 0xEF], [0x12, 0x34], [0xFF, 0xFF, 0xFF], [0x01, 0xF4, 0x33]] :
      List (List Byte)).map crc8) = [0xFF, 0xAC, 0x00, 0xD6, 0x92, 0x37, 0x2D, 0x00] := by decide +kernel
/-- The CRC of 0x01 0x31 collides with that of 0x00 0x00 (40_crc.md R102 item 5). -/
theorem test_crc_collision : crc8 [0x01, 0x31] = 0x81 ∧ crc8 [0x00, 0x00] = 0x81 := by decide +kernel
theorem test_crcCompute : answer (exec (.crcCompute [0x00, 0x01]) running) = some [0x00, 0xB0] := by decide +kernel
theorem test_crcVerify : answer (exec (.crcVerify [0x00, 0x00] 0x81) board) = some [0x00, 0x01] := by decide +kernel
theorem test_crcVerify_mismatch : answer (exec (.crcVerify [] 0x00) board) = some [0x00, 0x00] := by decide
theorem test_frameEncode_a :
    answer (exec (.frameEncode .a 0xFFFF [0xFF, 0xFF, 0xFF]) board) =
      some [0x00, 0x00, 0x06, 0xFF, 0xFF, 0xFF, 0xFF, 0xFF, 0x2D] := by decide +kernel
theorem test_frameEncode_b :
    answer (exec (.frameEncode .b 0x1234 [0x01, 0xF4]) board) = some [0x00, 0x00, 0x04, 0x12, 0x34, 0x01, 0xF4] := by
  decide
theorem test_frameDecode :
    answer (exec (.frameDecode .a 3 [0x01, 0xF4, 0x33, 0x80, 0x00, 0xA2, 0x40, 0x00, 0x08]) board) =
      some [0x00, 0x03, 0x01, 0xF4, 0x80, 0x00, 0x40, 0x00] := by decide +kernel
theorem test_frameDecode_second_group_bad :
    answer (exec (.frameDecode .b 2 [0x12, 0x34, 0x37, 0x00, 0x00, 0x80]) board) = some [0x81, 0x00] := by
  decide +kernel
theorem test_measDecode_float :
    answer (exec (.measDecode .float [0x7FC0, 0x0000, 0xFF80, 0x0001, 0x8000, 0x0000]) board) =
      some [0x00, 0x00, 0x7F, 0xC0, 0x00, 0x00, 0xFF, 0x80, 0x00, 0x01, 0x80, 0x00, 0x00, 0x00] := by decide
theorem test_measDecode_fixed :
    answer (exec (.measDecode .fixed [0x0000, 0x3333, 0x0000]) board) =
      some [0x00, 0x01, 0x00, 0x00, 0xFF, 0xF6, 0x00, 0x0A, 0x00, 0x00, 0x00, 0x00] := by decide
/-- The values of three binary32 patterns (42_measurement_decoder.md R126). -/
theorem test_floatValue : floatValue 0x43FA0000 = .finite false 500 ∧ floatValue 0xFF800000 = .infinite true ∧
    floatValue 0x7FC00000 = .nan := by decide +kernel

/-! ### Session operations (vector table L2.4) -/

theorem test_startPeriodic : shown (exec (.startPeriodic [0x00, 0x00]) board) =
    some ⟨[0x00], 1, .periodicRunning, 1, [(0, [0x21, 0xB1, 0x00, 0x00])]⟩ := by decide
theorem test_startPeriodic_waits : shown (exec (.startPeriodic []) (boardAt .stopped 500 10)) =
    some ⟨[0x00], 501, .periodicRunning, 501, [(500, [0x21, 0xB1])]⟩ := by decide
theorem test_stopPeriodic : shown (exec .stopPeriodic running) =
    some ⟨[0x00], 500, .stopped, 500, [(0, [0x3F, 0x86])]⟩ := by decide
theorem test_stopPeriodic_fails : shown (exec .stopPeriodic (failing running 3)) =
    some ⟨[0x80, 0x01], 0, .periodicRunning, 0, [(0, [0x3F, 0x86])]⟩ := by decide
theorem test_dataReady : shown (exec .dataReady (reading running 5 [0x00, 0x01, 0xB0])) =
    some ⟨[0x00, 0x01], 1, .periodicRunning, 1, [(0, [0xE4, 0xB8]), (1, [0x00, 0x01, 0xB0])]⟩ := by decide +kernel
theorem test_dataReady_other_word : answer (exec .dataReady (reading running 5 [0x80, 0x01, 0x93])) =
    some [0x00, 0x00] := by decide +kernel
theorem test_readMeasurement :
    answer (exec .readMeasurement (reading running 5 [0x01, 0xF4, 0x33, 0x80, 0x00, 0xA2, 0x40, 0x00, 0x08])) =
      some [0x00, 0x01, 0x01, 0xF4, 0x00, 0x2A, 0x80, 0x2D, 0x00, 0x19, 0x00, 0x00] := by decide +kernel
/-- Program P3, step 5: the continuous instance reads eighteen Bytes. -/
theorem test_readMeasurement_float :
    shown (exec .readMeasurement (float (reading (boardAt .periodicRunning 503 503) 5 [0x43, 0xFA, 0x7C, 0x00, 0x00,
      0x81, 0x41, 0xC8, 0x02, 0x00, 0x00, 0x81, 0x42, 0x48, 0x55, 0x00, 0x00, 0x81]))) =
      some ⟨[0x00, 0x00, 0x43, 0xFA, 0x00, 0x00, 0x41, 0xC8, 0x00, 0x00, 0x42, 0x48, 0x00, 0x00], 504,
        .periodicRunning, 504, [(503, [0x03, 0x00]), (504, [0x43, 0xFA, 0x7C, 0x00, 0x00, 0x81, 0x41, 0xC8, 0x02, 0x00,
          0x00, 0x81, 0x42, 0x48, 0x55, 0x00, 0x00, 0x81])]⟩ := by decide +kernel
theorem test_singleShot : shown (exec .singleShot (reading board 9 [0x04, 0x00, 0x02, 0x66, 0x66, 0x93, 0x80, 0x00,
    0xA2])) = some ⟨[0x00, 0x01, 0x04, 0x00, 0x00, 0x18, 0xFF, 0xE7, 0x00, 0x32, 0x00, 0x00], 5001, .stopped, 5001,
      [(0, [0x21, 0x9D]), (5000, [0xEC, 0x05]), (5001, [0x04, 0x00, 0x02, 0x66, 0x66, 0x93, 0x80, 0x00, 0xA2])]⟩ := by
  decide +kernel
theorem test_singleShot_bad_response : shown (exec .singleShot (reading (under board .report) 9 [0x01, 0xF4, 0x33,
    0x80, 0x00, 0xA2, 0x40, 0x00, 0x09])) = some ⟨[0x81, 0x10], 5001, .stopped, 5001, [(0, [0x21, 0x9D]),
      (5000, [0xEC, 0x05]), (5001, [0x01, 0xF4, 0x33, 0x80, 0x00, 0xA2, 0x40, 0x00, 0x09])]⟩ := by decide +kernel
theorem test_factoryReset : shown (exec .factoryReset (boardAt .periodicRunning 0 100)) =
    some ⟨[0x00], 1300, .stopped, 1300, [(100, [0x36, 0x32])]⟩ := by decide
/-- RESET after READ_MEASUREMENT's write and before its read (vector L2.7). -/
theorem test_reset_inside : shown (exec .readMeasurement (withDraw running 4 { quiet with reset := true })) =
    some ⟨[], 0, .stopped, 0, [(0, [0xEC, 0x05])]⟩ := by decide

/-! ### Configuration and STATUS (vector table L2.5) -/

theorem test_setAltitude : shown (exec (.setAltitude 0x01F4) (float board)) =
    some ⟨[0x00], 1, .stopped, 1, [(0, [0x51, 0x02, 0x01, 0xF4, 0x33])]⟩ := by decide +kernel
theorem test_setTempOffset_fails : shown (exec (.setTempOffset 0x0BB8) (failing (under (boardAt .stopped 1702 1702)
    .report) 3)) = some ⟨[0x80, 0x01], 1702, .stopped, 1702, [(1702, [0x24, 0x1D, 0x0B, 0xB8])]⟩ := by decide
theorem test_setAutoCal : shown (exec (.setAutoCal 0x0001) board) =
    some ⟨[0x00], 1, .stopped, 1, [(0, [0x24, 0x16, 0x00, 0x01])]⟩ := by decide
theorem test_getAltitude : answer (exec .getAltitude (reading board 5 [0x01, 0xF4, 0x33])) =
    some [0x00, 0x01, 0xF4] := by decide +kernel
theorem test_getTempOffset : shown (exec .getTempOffset (reading (under (boardAt .stopped 1701 1701) .report) 5
    [0x0B, 0xB8, 0x9D])) = some ⟨[0x00, 0x0B, 0xB8], 1702, .stopped, 1702,
      [(1701, [0x23, 0x18]), (1702, [0x0B, 0xB8, 0x9D])]⟩ := by decide +kernel
theorem test_status : answer (exec .status (under (boardAt .periodicRunning 501 0) .hold)) =
    some [0x00, 0x31, 0, 0, 0, 0, 0, 0, 0x01, 0xF5, 0x62, 0, 0, 0, 0, 0] := by decide

/-! ### The text of an operation (30_encoding.md R93, R94) -/

theorem test_assemble : assemble .fixedPointPeriodic "start [0x00, 0x00]" = some (.startPeriodic [0, 0]) ∧
    assemble .floatContinuous "init" = some .stopPeriodic ∧
    assemble .floatContinuous "set_altitude 500" = some (.setAltitude 0x01F4) ∧
    assemble .floatContinuous "frame.encode 0x5102, [0x01, 0xF4]" = some (.frameEncode .a 0x5102 [0x01, 0xF4]) ∧
    assemble .floatContinuous "set_altitude 65536" = none := by decide

/-! ### Witnesses: a state and operands that meet all hypotheses of a statement together -/

/-- REPORT at the moment the deadline is reached: the boundary of `onTime`. -/
def atDeadline : State := under (boardAt .stopped 500 500) .report

/-- Three good groups. -/
def threeGroups : List Byte := [0x01, 0xF4, 0x33, 0x80, 0x00, 0xA2, 0x40, 0x00, 0x08]

theorem witness_DecodeOfEncode : (Instr.frameDecode .b 255 (List.replicate 765 0)).wf = true := by decide +kernel
theorem witness_EncodeOfDecode : decode [0x01, 0x00] = .ok (.crcCompute []) := by decide
theorem witness_IllegalOpcodesRefused : let s := { board with inputs := [.request 0x45 [0x00, 0x00]] }
    s.phase = .idle ∧ s.resp = [] ∧ opcodeOf 0x45 = none ∧ s.undisturbed 1 := by decide
theorem witness_LengthDecidesRequests : opcodeOf 0x04 = some (.frameDecode .a) ∧
    frameLength (.frameDecode .a) [0x04, 0x00] = some 2 ∧ opcodeOf 0x06 = none := by decide
theorem witness_BadRequestsRaise : let s := { board with inputs := [.request 0x21 [0x00]] }
    s.phase = .idle ∧ s.resp = [] ∧ s.undisturbed 1 ∧ opcodeOf 0xFF = none ∧ opcodeOf 0x21 = some .stopPeriodic ∧
      frameLength .stopPeriodic [0x21, 0x00] ≠ some 2 := by decide
theorem witness_CrcDetectsSingleBit : 7 < 8 ∧ crc8 [0x00, 0x00] ≠ crc8 [0x00, 0x80] := by decide +kernel
theorem witness_CrcAffinity : ([0x00, 0x00] : List Byte).length = ([0x00, 0x01] : List Byte).length := by decide
theorem witness_DecodeWordsExact : decodeWords [0x01, 0xF4, 0x33] 1 = some [0x01F4] ∧
    decodeWords [0x01, 0xF4, 0x34] 1 = none ∧ decodeWords [] 0 = some [] := by decide +kernel

/-- The pure operations and STATUS: any state that RESET leaves alone for three micro-steps, RUNNING here. -/
theorem witness_pure_operations : (boardAt .periodicRunning 500 10).undisturbed 3 := by decide
theorem witness_CrcComputeCompletes : running.undisturbed 3 := by decide
theorem witness_CrcVerifyCompletes : running.undisturbed 3 := by decide
theorem witness_FrameEncodeCompletes : running.undisturbed 3 := by decide
theorem witness_FrameDecodeCompletes : running.undisturbed 3 ∧ decodeWords [0x00, 0x00, 0x81] 1 = some [0x0000] ∧
    decodeWords [0x00, 0x00, 0x80] 1 = none := by decide +kernel
theorem witness_MeasDecodeCompletes : running.undisturbed 3 := by decide
theorem witness_StatusCompletes : running.undisturbed 3 := by decide

theorem witness_StartPeriodicCompletes : atDeadline.session = .stopped ∧
    commandWord atDeadline.params .startPeriodic = some 0x21B1 ∧ atDeadline.onTime ∧
    atDeadline.undisturbed (5 + finishSteps atDeadline.params) ∧ (atDeadline.drawAt 3).ok = true := by decide
theorem witness_StopPeriodicCompletes : commandWord running.params .stopPeriodic = some 0x3F86 ∧ running.onTime ∧
    running.undisturbed (5 + finishSteps running.params) ∧ (running.drawAt 3).ok = true := by decide
theorem witness_FactoryResetCompletes : commandWord running.params .factoryReset = some 0x3632 ∧ running.onTime ∧
    running.undisturbed (5 + finishSteps running.params) ∧ (running.drawAt 3).ok = true := by decide
theorem witness_DataReadyCompletes : let s := reading running 5 [0x00, 0x01, 0xB0]
    s.session = .periodicRunning ∧ commandWord s.params .dataReady = some 0xE4B8 ∧ s.onTime ∧
      s.undisturbed (8 + finishSteps s.params) ∧ (s.drawAt 3).ok = true ∧ (s.drawAt 5).ok = true ∧
      decodeWords (s.delivered 5 3) 1 = some [0x0001] := by decide +kernel
theorem witness_ReadMeasurementCompletes : let s := reading running 5 threeGroups
    s.session = .periodicRunning ∧ commandWord s.params .readMeasurement = some 0xEC05 ∧ s.onTime ∧
      s.undisturbed (8 + finishSteps s.params) ∧ (s.drawAt 3).ok = true ∧ (s.drawAt 5).ok = true ∧
      s.params.variant ≠ .floatContinuous ∧ decodeWords (s.delivered 5 9) 3 = some [0x01F4, 0x8000, 0x4000] := by
  decide +kernel
theorem witness_SingleShotCompletes : let s := reading board 9 threeGroups
    s.session = .stopped ∧ commandWord s.params .singleShot = some 0x219D ∧
      commandWord s.params .readMeasurement = some 0xEC05 ∧ s.onTime ∧ s.undisturbed (13 + finishSteps s.params) ∧
      (s.drawAt 3).ok = true ∧ (s.drawAt 7).ok = true ∧ (s.drawAt 9).ok = true ∧
      s.params.variant ≠ .floatContinuous ∧ decodeWords (s.delivered 9 9) 3 = some [0x01F4, 0x8000, 0x4000] := by
  decide +kernel
/-- The first write is answered OK, and the round trip ends at its CRC check, at its write, at its read. -/
theorem witness_SingleShotPending : ∀ s ∈ [board, failing board 7, failing board 9],
    s.session = .stopped ∧ commandWord s.params .singleShot = some 0x219D ∧
      commandWord s.params .readMeasurement = some 0xEC05 ∧ s.onTime ∧ s.undisturbed 12 ∧ (s.drawAt 3).ok = true := by
  decide
theorem witness_SettersComplete : commandWord board.params .setAltitude = some 0x2427 ∧
    commandWord board.params .setTempOffset = some 0x241D ∧ commandWord board.params .setAutoCal = some 0x2416 ∧
    board.onTime ∧ board.undisturbed (4 + finishSteps board.params) ∧ (board.drawAt 3).ok = true := by decide
theorem witness_GettersComplete : let s := reading board 5 [0x0B, 0xB8, 0x9D]
    commandWord s.params .getAltitude = some 0x2322 ∧ commandWord s.params .getTempOffset = some 0x2318 ∧
      s.onTime ∧ s.undisturbed (7 + finishSteps s.params) ∧ (s.drawAt 3).ok = true ∧ (s.drawAt 5).ok = true ∧
      decodeWords (s.delivered 5 3) 1 = some [0x0BB8] := by decide +kernel

theorem witness_AlreadyRunningReported : running.session ≠ .stopped ∧ running.supports (.startPeriodic []) ∧
    running.undisturbed 1 := by decide
theorem witness_ProtocolStateErrors : (¬ (float board).supports .singleShot ∧ (float board).undisturbed 1) ∧
    board.supports .dataReady ∧ sessionAllows .dataReady board.session = false ∧ board.undisturbed 1 := by
  decide
/-- One millisecond before the deadline. -/
theorem witness_TimingViolations : let s := under (boardAt .stopped 500 499) .report
    firstCommand .stopPeriodic ≠ none ∧ s.supports .stopPeriodic ∧ sessionAllows .stopPeriodic s.session = true ∧
      s.params.policy = .report ∧ s.clock 1 < s.readyAt ∧ s.undisturbed 1 := by decide
theorem witness_TimingViolations_elsewhere : let s := boardAt .stopped 500 499
    s.params.policy ≠ .report ∧ ∃ t, exec .stopPeriodic s = .next t := ⟨by decide, _, rfl⟩
theorem witness_FirstWriteFails : let s := failing atDeadline 3
    firstCommand .singleShot = some (.singleShot, []) ∧ commandWord s.params .singleShot = some 0x219D ∧
      s.supports .singleShot ∧ sessionAllows .singleShot s.session = true ∧ s.onTime ∧
      s.undisturbed (4 + finishSteps s.params) ∧ (s.drawAt 3).ok = false := by decide
theorem witness_ReadFails : let s := failing running 5
    readCommand .dataReady = some .dataReady ∧ commandWord s.params .dataReady = some 0xE4B8 ∧
      sessionAllows .dataReady s.session = true ∧ s.onTime ∧ s.undisturbed (6 + finishSteps s.params) ∧
      (s.drawAt 3).ok = true ∧ (s.drawAt 5).ok = false := by decide
theorem witness_ChecksumFails : let s := reading running 5 [0x00, 0x01, 0xB1]
    readCommand .dataReady = some .dataReady ∧ commandWord s.params .dataReady = some 0xE4B8 ∧
      sessionAllows .dataReady s.session = true ∧ s.onTime ∧ s.undisturbed (7 + finishSteps s.params) ∧
      (s.drawAt 3).ok = true ∧ (s.drawAt 5).ok = true ∧ decodeWords (s.delivered 5 3) 1 = none := by decide +kernel
theorem witness_SingleShotSecondWriteFails : let s := failing board 7
    s.session = .stopped ∧ commandWord s.params .singleShot = some 0x219D ∧
      commandWord s.params .readMeasurement = some 0xEC05 ∧ s.onTime ∧ s.undisturbed (9 + finishSteps s.params) ∧
      (s.drawAt 3).ok = true ∧ (s.drawAt 7).ok = false := by decide
theorem witness_SingleShotReadFails : let s := failing board 9
    s.session = .stopped ∧ commandWord s.params .singleShot = some 0x219D ∧
      commandWord s.params .readMeasurement = some 0xEC05 ∧ s.onTime ∧ s.undisturbed (12 + finishSteps s.params) ∧
      (s.drawAt 3).ok = true ∧ (s.drawAt 7).ok = true ∧ (s.drawAt 9).ok = false := by decide
theorem witness_SingleShotReadFails_checksum : let s := reading board 9 (threeGroups.set 8 0x09)
    s.session = .stopped ∧ commandWord s.params .singleShot = some 0x219D ∧
      commandWord s.params .readMeasurement = some 0xEC05 ∧ s.onTime ∧ s.undisturbed (12 + finishSteps s.params) ∧
      (s.drawAt 3).ok = true ∧ (s.drawAt 7).ok = true ∧ (s.drawAt 9).ok = true ∧
      s.params.variant ≠ .floatContinuous ∧ decodeWords (s.delivered 9 9) 3 = none := by decide +kernel

/-- The boards of the statements about RESET: asserted while IDLE, before the first and before the fourth micro-step. -/
theorem witness_ResetEvent : let s := { running with inputs := [.reset] }
    s.phase = .idle ∧ s.inputs = .reset :: [] := by decide
theorem witness_ResetEvent_waiting : let s := withDraw running 0 { quiet with reset := true }
    s.phase = .idle ∧ s.resp = [] ∧ s.inputs = [] ∧ (s.drawAt 0).reset = true := by decide
theorem witness_ResetEvent_refused :
    let s := { withDraw running 0 { quiet with reset := true } with inputs := [.request 0xFF []] }
    s.phase = .idle ∧ s.resp = [] ∧ s.inputs = .request 0xFF [] :: [] ∧
      decodeRequest 0xFF [] = .error .illegalOpcode ∧ (s.drawAt 0).reset = true := by decide
theorem witness_ResetAbandonsOperation : ∃ u,
    resumeFor 3 ((withDraw running 3 { quiet with reset := true }).begin .stopPeriodic) = .next u ∧
      u.phase = .exec ∧ (u.drawAt 0).reset = true := ⟨_, rfl, rfl, rfl⟩
theorem witness_ResetAbandonsOperation_first : ∃ u,
    resumeFor 0 ((withDraw running 0 { quiet with reset := true }).begin .status) = .next u ∧
      u.phase = .exec ∧ (u.drawAt 0).reset = true := ⟨_, rfl, rfl, rfl⟩

theorem witness_StepRunsDecodedOperation : let s := { board with inputs := [.request 0x21 []] }
    s.phase = .idle ∧ s.resp = [] ∧ decodeRequest 0x21 [] = .ok .stopPeriodic := by decide
theorem witness_ResponseTakenFirst : ∀ inputs ∈ ([[], [.elapse 1, .reset], [.request 0x21 []]] : List (List Input)),
    let s := { board with resp := [0x00], inputs := inputs }
    s.phase = .idle ∧ s.resp ≠ [] ∧ s.inputs.head? ≠ some .reset := by decide
theorem witness_PassingTimeChangesNothing : let s := { running with inputs := [.elapse 0, .reset] }
    s.phase = .idle ∧ s.resp = [] ∧ s.inputs = .elapse 0 :: [.reset] := by decide
theorem witness_PassingTimeChangesNothing_waiting :
    running.phase = .idle ∧ running.resp = [] ∧ running.inputs = [] ∧ running.undisturbed 1 := by decide
theorem witness_StepKeepsBoundary : let s := { board with inputs := [.request 0x21 []] }
    s.AtBoundary ∧ ∃ t, step s = .next t :=
  ⟨⟨rfl, rfl, by decide, by decide, by decide, by decide, by decide, by decide, by decide⟩, _, rfl⟩
theorem witness_IdleNeverStops : board.phase = .idle := rfl
theorem witness_step_answers : ∃ t, step { board with inputs := [.request 0x21 []] } = .next t := ⟨_, rfl⟩
theorem witness_RunEnds : let s := { running with resp := [0x00], inputs := [.request 0x22 [], .reset] }
    s.phase = .idle ∧ s.runEnded = false := by decide
theorem witness_ParametersNeverChange : ∃ t, step { board with inputs := [.reset] } = .next t := ⟨_, rfl⟩
theorem witness_NowNeverDecreases : ∃ t, step { board with inputs := [.elapse 7] } = .next t := ⟨_, rfl⟩
theorem witness_BusAccessesLegal : (Instr.startPeriodic (List.replicate 255 0)).wf = true ∧
    ∃ t, exec (.startPeriodic (List.replicate 255 0)) board = .next t := ⟨by decide +kernel, _, rfl⟩
theorem witness_ReadyAtWriters : ∃ t, exec .stopPeriodic board = .next t ∧ t.readyAt ≠ board.readyAt :=
  ⟨_, rfl, by decide⟩
theorem witness_OneLegalResponse : ∃ t, exec .singleShot board = .next t := ⟨_, rfl⟩
theorem witness_SessionTransitions : running.session ≠ .singleShotPending ∧
    ∃ t, exec .stopPeriodic running = .next t ∧ t.resp ≠ [] := ⟨by decide, _, rfl, by decide⟩
theorem witness_UnwrittenBufferFaults :
    let s := { board with phase := .exec, stepIndex := 3, cur := .stopPeriodic }
    let u := { running with phase := .exec, stepIndex := 6, cur := .dataReady, txWritten := true }
    step s = .fault .unwrittenBuffer ∧ step u = .fault .unwrittenBuffer := ⟨rfl, rfl⟩

end Sys2Proof.Tests
end

section
/-! The response lengths of the CMD table (00_scope.md R10). -/

namespace Sys2Proof.Machine

/-- The one entry of the table that VARIANT decides. -/
theorem responseWords_readMeasurement (v : Variant) :
    responseWords v .readMeasurement = if v = .floatContinuous then 6 else 3 := by
  cases v with
  | floatContinuous => rfl
  | fixedPointPeriodic => rfl

/-- On the wire each word is two Bytes and their CRC. -/
theorem responseBytes_readMeasurement (v : Variant) :
    3 * responseWords v .readMeasurement = if v = .floatContinuous then 18 else 9 := by
  rw [responseWords_readMeasurement]
  split <;> rfl

/-- The table's last row: these commands have no read. -/
theorem responseWords_of_no_read (v : Variant) :
    ∀ c ∈ [CmdName.startPeriodic, .stopPeriodic, .setTempOffset, .setAltitude, .setAutoCal, .factoryReset,
      .singleShot], responseWords v c = 0 := by
  simp only [List.forall_mem_cons, responseWords, List.not_mem_nil, false_implies, implies_true, and_self]

/-- Settles O58: the rows of R10's table, each by the lemma about it or by the definition's own case. -/
theorem responseLengthTable : Obligations.ResponseLengthTable := by
  intro v
  have ready : responseWords v .dataReady = 1 := rfl
  exact ⟨ready, rfl, rfl, responseWords_readMeasurement v, responseWords_of_no_read v, by rw [ready],
    responseBytes_readMeasurement v⟩

end Sys2Proof.Machine
end

section
/-! The state's tier 1 statements and the frame of a step (10_state.md R20, R26, R29, R30, R31, R33). -/

namespace Sys2Proof.Machine

/-! ### The ST Byte -/

/-- Settles O22: the Byte depends on three small enumerations, whose eighteen combinations are run through. -/
theorem stByteFields : Obligations.StByteFields := by
  intro x p
  unfold stByte
  cases p.variant <;> cases p.policy <;> cases x <;> decide

/-! ### One operation, one step -/

/-- An operation runs the lines of its rule from its ACCEPT. -/
theorem exec_eq_runLines (i : Instr) (s : State) :
    exec i s = .next (runLines (ruleOfInstr i s.params) (s.begin i)) := by
  cases i <;> rfl

/-- Everything the step of an idle block can answer. -/
theorem step_idle_next {s t : State} (h : s.phase = .idle) (hs : step s = .next t) :
    t = resetIdle s ∨ (s.resp ≠ [] ∧ t = takeResponse s) ∨
      (∃ op rest i, decodeRequest op rest = .ok i ∧ exec i s.dropInput = .next t) ∨
      (∃ e, t = refuseRequest e s.dropInput) ∨ (∃ ms, t = elapse ms s) ∨ t = waitForRequest s := by
  rcases step_idle_cases h with ⟨_, _, e⟩ | ⟨hr, e⟩ | ⟨_, ⟨op, rest, _, i, _, hd, e⟩ | ⟨_, _, _, b, _, _, e⟩ |
    ⟨ms, _, _, e⟩ | ⟨_, e⟩⟩ <;> rw [e] at hs
  · exact .inl (by cases hs; rfl)
  · exact .inr (.inl ⟨hr, by cases hs; rfl⟩)
  · exact .inr (.inr (.inl ⟨op, rest, i, hd, hs⟩))
  · exact .inr (.inr (.inr (.inl ⟨b, by cases hs; rfl⟩)))
  · exact .inr (.inr (.inr (.inr (.inl ⟨ms, by cases hs; rfl⟩))))
  · exact .inr (.inr (.inr (.inr (.inr (by cases hs; rfl)))))

/-- Settles O43: the case of a decodable request in `step`. -/
theorem stepRunsDecodedOperation : Obligations.StepRunsDecodedOperation := by
  intro s op rest more i hp hr hi hd
  have dropped : s.dropInput = { s with inputs := more } := by simp [State.dropInput, hi]
  simp only [step, hp, hi, hr, hd, dropped]

/-- Settles O44: of what an idle block can do, only RESET comes before the taking of a response. -/
theorem responseTakenFirst : Obligations.ResponseTakenFirst := by
  intro s hp hr hi
  rcases step_idle_cases hp with ⟨more, he, _⟩ | ⟨_, e⟩ | ⟨he, _⟩
  · simp [he] at hi
  · exact e
  · exact absurd he hr

/-- Settles O45: an `elapse` input and a quiet wait for a request. -/
theorem passingTimeChangesNothing : Obligations.PassingTimeChangesNothing := by
  refine ⟨fun s ms more hp hr hi => ?_, fun s hp hr hi hq => ?_⟩
  · simp only [step, hp, hi, hr, elapse, State.dropInput, List.tail_cons]
  · have quiet : waitForRequest s = s.tick := by simp [waitForRequest, hq 0 (by decide)]
    have waits : step s = .next (waitForRequest s) := by simp only [step, hp, hi, hr]
    exact waits.trans (congrArg _ quiet)

/-! ### Faults -/

/-- An idle block never stops. -/
theorem step_idle_answers {s : State} (h : s.phase = .idle) : ∃ t, step s = .next t := by
  rcases step_idle_cases h with ⟨_, _, e⟩ | ⟨_, e⟩ | ⟨_, ⟨_, _, _, i, _, _, e⟩ | ⟨_, _, _, _, _, _, e⟩ |
    ⟨_, _, _, e⟩ | ⟨_, e⟩⟩
  · exact ⟨_, e⟩
  · exact ⟨_, e⟩
  · exact ⟨_, e.trans (exec_eq_runLines i _)⟩
  · exact ⟨_, e⟩
  · exact ⟨_, e⟩
  · exact ⟨_, e⟩

/-- Which micro-steps read an unwritten buffer. -/
theorem readsUnwritten_iff (a : Act) (s : State) :
    readsUnwritten a s = true ↔
      (s.txWritten = false ∧ ∃ c t, a = .write c t) ∨ (s.rxWritten = false ∧ ∃ n t, a = .decodeBuffer n t) := by
  cases a <;> simp [readsUnwritten]

/-- One micro-step stops exactly where it would read an unwritten buffer. -/
theorem resume_fault_iff (s : State) :
    resume s = .fault .unwrittenBuffer ↔ ∃ a, s.currentAct = some a ∧ readsUnwritten a s = true := by
  cases ha : s.currentAct with
  | none => simp [resume, ha]
  | some a => cases hr : readsUnwritten a s <;> simp [resume, ha, hr]

/-- Settles O56: no step of an idle block stops, and inside an operation it is one `resume`. -/
theorem unwrittenBufferFaults : Obligations.UnwrittenBufferFaults := by
  intro s
  cases hp : s.phase with
  | idle =>
    obtain ⟨t, ht⟩ := step_idle_answers hp
    simp [ht]
  | exec =>
    rw [step_exec hp, resume_fault_iff]
    constructor
    · rintro ⟨a, ha, hr⟩
      rcases (readsUnwritten_iff a s).mp hr with ⟨hw, c, t, rfl⟩ | ⟨hw, n, t, rfl⟩
      · exact ⟨rfl, .inl ⟨hw, c, t, ha⟩⟩
      · exact ⟨rfl, .inr ⟨hw, n, t, ha⟩⟩
    · rintro ⟨-, ⟨hw, c, t, ha⟩ | ⟨hw, n, t, ha⟩⟩
      · exact ⟨_, ha, (readsUnwritten_iff _ s).mpr (.inl ⟨hw, c, t, rfl⟩)⟩
      · exact ⟨_, ha, (readsUnwritten_iff _ s).mpr (.inr ⟨hw, n, t, rfl⟩)⟩

/-! ### Parameters and time -/

/-- `t` has the construction parameters of `s` and its NOW or a later one (R20, R30). -/
def State.precedes (s t : State) : Prop := t.params = s.params ∧ s.now ≤ t.now

@[simp] theorem State.precedes_iff (s t : State) : s.precedes t ↔ t.params = s.params ∧ s.now ≤ t.now := Iff.rfl

theorem State.precedes_refl (s : State) : s.precedes s := ⟨rfl, le_rfl⟩

theorem State.precedes_trans {s t u : State} (h : s.precedes t) (h' : t.precedes u) : s.precedes u :=
  ⟨h'.1.trans h.1, h.2.trans h'.2⟩

/-- The effect of a micro-step writes no parameter and does not turn NOW back. -/
theorem perform_precedes (a : Act) (d : Draw) (s : State) : s.precedes (perform a d s) := by
  cases a with
  | accept needs allowed e =>
    rcases acceptChecks_cases needs allowed e s with ⟨_, h⟩ | ⟨_, ⟨_, ⟨_, h⟩ | ⟨_, h⟩⟩ | ⟨_, ⟨_, _, h⟩ | ⟨_, h⟩⟩⟩ <;>
      simp [perform, h, State.raise]
  | acceptPure => simp [perform]
  | loadFrame c p => rcases loadFrame_cases c p s with ⟨_, _, h⟩ | ⟨_, h⟩ <;> simp [perform, h, State.raise]
  | waitReady => exact ⟨rfl, (waitReady_spec s).2.2⟩
  | write c t => rcases busWrite_cases c t d s with ⟨_, h⟩ | ⟨_, h⟩ <;> simp [perform, h]
  | read n t => rcases busRead_cases n t d s with ⟨_, h⟩ | ⟨_, h⟩ <;> simp [perform, h]
  | decodeBuffer n t => rcases decodeInto_cases s.rxbuf n t s with ⟨_, _, h⟩ | ⟨_, h⟩ <;> simp [perform, h]
  | decodeOperand raw k => rcases decodeInto_cases raw k 0 s with ⟨_, _, h⟩ | ⟨_, h⟩ <;> simp [perform, h]
  | setSession x => simp [perform]
  | compute f => simp [perform]
  | respond f => simp [perform, State.respond]
  | raise => cases h : s.failed <;> simp [perform, h, State.raise]

/-- A cut bus access writes no parameter and takes no time. -/
theorem abandon_precedes (a : Act) (s : State) : s.precedes (abandon a s) := by
  cases a <;> simp [abandon]

theorem tick_precedes (s : State) : s.precedes s.tick := by simp

theorem runAct_precedes (a : Act) (s : State) : s.precedes (runAct a s) := by
  rcases runAct_cases a s with ⟨_, h⟩ | ⟨_, h⟩ <;> rw [h]
  · exact State.precedes_trans (tick_precedes s) (abandon_precedes a s.tick)
  · exact State.precedes_trans (tick_precedes s) (perform_precedes a _ s.tick)

theorem exec_precedes {i : Instr} {s t : State} (h : exec i s = .next t) : s.precedes t := by
  rw [exec_eq_runLines] at h
  cases h
  exact runLines_induction (P := s.precedes) _ _
    (fun _ _ a _ u hu => State.precedes_trans hu (runAct_precedes a u)) (s.precedes_refl)

theorem resume_precedes {s t : State} (h : resume s = .next t) : s.precedes t := by
  cases ha : s.currentAct with
  | none =>
    simp only [resume, ha, Host.Outcome.next.injEq] at h
    exact h ▸ s.precedes_refl
  | some a =>
    cases hr : readsUnwritten a s
    · simp only [resume, ha, hr, Bool.false_eq_true, if_false, Host.Outcome.next.injEq] at h
      exact h ▸ runAct_precedes a s
    · simp [resume, ha, hr] at h

/-- No step writes a parameter or turns NOW back. -/
theorem step_precedes {s t : State} (h : step s = .next t) : s.precedes t := by
  cases hp : s.phase with
  | exec => exact resume_precedes (step_exec hp ▸ h)
  | idle =>
    rcases step_idle_next hp h with rfl | ⟨_, rfl⟩ | ⟨_, _, i, _, he⟩ | ⟨e, rfl⟩ | ⟨ms, rfl⟩ | rfl
    · simp [resetIdle]
    · simp [takeResponse]
    · simpa using exec_precedes he
    · rcases refuseRequest_cases e s.dropInput with ⟨_, h⟩ | ⟨_, h⟩ <;> simp [h, State.raise]
    · simp [elapse]
    · rcases waitForRequest_cases s with ⟨_, h⟩ | ⟨_, h⟩ <;> simp [h]

/-- Settles O49: the parameters' half of what every step keeps. -/
theorem parametersNeverChange : Obligations.ParametersNeverChange := fun _ _ h => (step_precedes h).1

/-- Settles O50: the half about NOW of what every step keeps. -/
theorem nowNeverDecreases : Obligations.NowNeverDecreases := fun _ _ h => (step_precedes h).2

end Sys2Proof.Machine
end

section
/-! The discipline that the rules of 40_crc.md to 44_config_status.md keep, as a typing of their lines: what each
micro-step needs of the ones before it. `Stage` is what is known before a line, `RuleOk` the typing. -/

namespace Sys2Proof.Machine

/-- The commands an operation sends, in order, each with its payload (43_session.md R134 to R139,
44_config_status.md R160 to R164). -/
def commandsSent : Instr → List (CmdName × List Byte)
  | .singleShot => [(.singleShot, []), (.readMeasurement, [])]
  | i => (firstCommand i).toList

/-- An operation needs the commands it sends (R130). -/
theorem needsOf_eq_map (i : Instr) : needsOf i = (commandsSent i).map Prod.fst := by
  cases i <;> rfl

theorem needsOf_of_sent {i : Instr} {k : Nat} {c : CmdName} {p : List Byte} (h : (commandsSent i)[k]? = some (c, p)) :
    (needsOf i)[k]? = some c := by
  simp [needsOf_eq_map, h]

/-- What is known before a line of an operation's rule. -/
structure Stage where
  /-- ACCEPT has passed. -/
  accepted : Bool
  /-- TXBUF holds the frame of the next command. -/
  framed : Bool
  /-- NOW has reached READY_AT. -/
  settled : Bool
  /-- RXBUF has been read. -/
  filled : Bool
  /-- SESSION may be SINGLE_SHOT_PENDING. -/
  pending : Bool
  /-- The writes made. -/
  sent : Nat

/-- What is known at ACCEPT: nothing. -/
def Stage.start : Stage where
  accepted := false
  framed := false
  settled := false
  filled := false
  pending := false
  sent := 0

/-- The micro-steps after an error: waits and the return to STOPPED, then the response, which needs SESSION to be one
that a host may observe (10_state.md R24). -/
inductive ErrorPart : Bool → List Act → Prop
  | waitReady {pending : Bool} {rest : List Act} (hr : ErrorPart pending rest) :
      ErrorPart pending (.waitReady :: rest)
  | setSession {pending : Bool} {rest : List Act} (x : Session)
      (hr : ErrorPart (decide (x = .singleShotPending)) rest) : ErrorPart pending (.setSession x :: rest)
  | raise {rest : List Act} : ErrorPart false (.raise :: rest)

/-- The lines of a rule keep the discipline: only commands the operation needs are encoded, each is written right after
it was encoded and no earlier than the deadline, a response is read likewise and checked once it is there, and a
response is given in a SESSION that a host may observe. -/
inductive RuleOk (i : Instr) : Stage → List Line → Prop
  | accept {g : Stage} {rest : List Line} {needs : List CmdName} {allowed : List Session} {e : WrongSession}
      (hn : needs = needsOf i) (hp : g.pending = false) (hr : RuleOk i { g with accepted := true } rest) :
      RuleOk i g (line (.accept needs allowed e) :: rest)
  | acceptPure {g : Stage} {rest : List Line} (hr : RuleOk i g rest) : RuleOk i g (line .acceptPure :: rest)
  | loadFrame {g : Stage} {rest : List Line} {c : CmdName} {p : List Byte} (ha : g.accepted = true)
      (hc : (commandsSent i)[g.sent]? = some (c, p)) (hr : RuleOk i { g with framed := true } rest) :
      RuleOk i g (line (.loadFrame c p) :: rest)
  | waitReady {g : Stage} {rest : List Line} (hr : RuleOk i { g with settled := true } rest) :
      RuleOk i g (line .waitReady :: rest)
  | write {g : Stage} {rest : List Line} {c : CmdName} {p : List Byte} {t : Nat} {onError : List Act}
      (hf : g.framed = true) (hs : g.settled = true) (hc : (commandsSent i)[g.sent]? = some (c, p))
      (ht : t = 0 ∨ t = 1) (he : ErrorPart g.pending onError)
      (hr : RuleOk i { g with framed := false, settled := false, sent := g.sent + 1 } rest) :
      RuleOk i g ({ act := .write c t, onError := onError } :: rest)
  | read {g : Stage} {rest : List Line} {n t : Nat} {onError : List Act} (hs : g.settled = true)
      (hn : n = 3 ∨ n = 9 ∨ n = 18) (ht : t = 0 ∨ t = 1) (he : ErrorPart g.pending onError)
      (hr : RuleOk i { g with filled := true } rest) : RuleOk i g ({ act := .read n t, onError := onError } :: rest)
  | decodeBuffer {g : Stage} {rest : List Line} {n t : Nat} {onError : List Act} (hf : g.filled = true)
      (ht : t = 0 ∨ t = 1) (he : ErrorPart g.pending onError) (hr : RuleOk i g rest) :
      RuleOk i g ({ act := .decodeBuffer n t, onError := onError } :: rest)
  | decodeOperand {g : Stage} {rest : List Line} {raw : List Byte} {k : Nat} {onError : List Act}
      (he : ErrorPart g.pending onError) (hr : RuleOk i g rest) :
      RuleOk i g ({ act := .decodeOperand raw k, onError := onError } :: rest)
  | setSession {g : Stage} {rest : List Line} (x : Session)
      (hr : RuleOk i { g with pending := decide (x = .singleShotPending) } rest) :
      RuleOk i g (line (.setSession x) :: rest)
  | compute {g : Stage} {rest : List Line} {f : State → List Byte} (hr : RuleOk i g rest) :
      RuleOk i g (line (.compute f) :: rest)
  | respond {g : Stage} {rest : List Line} {f : State → List Byte} (hp : g.pending = false) :
      RuleOk i g (line (.respond f) :: rest)

/-! ### The operations' rules -/

/-- `Finish` waits or does nothing (43_session.md R132). -/
theorem finishActs_cases (p : Params) : finishActs p = [.waitReady] ∨ finishActs p = [] := by
  cases h : p.policy <;> simp [finishActs, h]

theorem ErrorPart.finishError (p : Params) : ErrorPart false (finishError p) := by
  rcases finishActs_cases p with h | h <;> rw [Machine.finishError, h]
  · exact .waitReady .raise
  · exact .raise

theorem RuleOk.finishOk {i : Instr} {g : Stage} (p : Params) (f : State → List Byte) (hp : g.pending = false) :
    RuleOk i g (finishOk p f) := by
  rcases finishActs_cases p with h | h <;> rw [Machine.finishOk, h]
  · exact .waitReady (.respond hp)
  · exact .respond hp

/-- A response that is read has 3, 9 or 18 Bytes on the wire (20_memory.md R55). -/
theorem responseBytes_legal {v : Variant} {c : CmdName} {n : Nat} (h : responseWords v c = n + 1) :
    3 * (n + 1) = 3 ∨ 3 * (n + 1) = 9 ∨ 3 * (n + 1) = 18 := by
  have bytes : 3 * responseWords v c = 0 ∨ 3 * responseWords v c = 3 ∨ 3 * responseWords v c = 9 ∨
      3 * responseWords v c = 18 := by
    cases c <;> cases v <;> decide
  omega

/-- A round trip keeps the discipline (R131), whatever it leaves known of the deadline and of RXBUF. -/
theorem RuleOk.transact {i : Instr} {g : Stage} {c : CmdName} {payload : List Byte} {t : Nat} {onError : List Act}
    {rest : List Line} (p : Params) (ha : g.accepted = true) (hc : (commandsSent i)[g.sent]? = some (c, payload))
    (ht : t = 0 ∨ t = 1) (he : ErrorPart g.pending onError)
    (hr : ∀ settled filled, RuleOk i
      { g with framed := false, settled := settled, filled := filled, sent := g.sent + 1 } rest) :
    RuleOk i g (transact p c payload t onError ++ rest) := by
  refine .loadFrame ha hc (.waitReady (.write rfl rfl hc ht he ?_))
  cases hn : responseWords p.variant c with
  | zero => exact hr _ _
  | succ n => exact .waitReady (.read rfl (responseBytes_legal hn) ht he (.decodeBuffer rfl ht he (hr _ _)))

/-- A pure operation needs nothing of the stage (30_encoding.md R86). -/
theorem RuleOk.pureRule (i : Instr) (f : State → List Byte) : RuleOk i .start (pureRule f) :=
  .acceptPure (.compute (.respond rfl))

theorem RuleOk.setterRule {i : Instr} {c : CmdName} {w : Word} (p : Params) (hc : commandsSent i = [(c, be16 w)]) :
    RuleOk i .start (setterRule c w p) :=
  .accept (by simp [needsOf_eq_map, hc]) rfl
    (.transact p rfl (by simp [hc, Stage.start]) (.inl rfl) (.finishError p) fun _ _ => .finishOk p _ rfl)

theorem RuleOk.getterRule {i : Instr} {c : CmdName} (p : Params) (hc : commandsSent i = [(c, [])]) :
    RuleOk i .start (getterRule c p) :=
  .accept (by simp [needsOf_eq_map, hc]) rfl
    (.transact p rfl (by simp [hc, Stage.start]) (.inl rfl) (.finishError p) fun _ _ => .finishOk p _ rfl)

/-- Every operation's rule keeps the discipline. -/
theorem ruleOfInstr_ok (i : Instr) (p : Params) : RuleOk i .start (ruleOfInstr i p) := by
  cases i with
  | crcCompute data => exact .pureRule _ _
  | crcVerify data c => exact .pureRule _ _
  | frameEncode d cmd payload => exact .pureRule _ _
  | frameDecode d k raw => exact .acceptPure (.decodeOperand .raise (.respond rfl))
  | measDecode r ws => exact .pureRule _ _
  | startPeriodic payload =>
    exact .accept rfl rfl (.transact p rfl rfl (.inl rfl) (.finishError p) fun _ _ =>
      .setSession _ (.finishOk p _ rfl))
  | stopPeriodic =>
    exact .accept rfl rfl (.transact p rfl rfl (.inl rfl) (.finishError p) fun _ _ =>
      .setSession _ (.finishOk p _ rfl))
  | dataReady =>
    exact .accept rfl rfl (.transact p rfl rfl (.inl rfl) (.finishError p) fun _ _ => .compute (.finishOk p _ rfl))
  | readMeasurement =>
    exact .accept rfl rfl (.transact p rfl rfl (.inl rfl) (.finishError p) fun _ _ => .compute (.finishOk p _ rfl))
  | singleShot =>
    exact .accept rfl rfl (.transact p rfl rfl (.inl rfl) (.finishError p) fun _ _ =>
      .setSession _ (.transact p rfl rfl (.inr rfl) (.setSession _ (.finishError p)) fun _ _ =>
        .setSession _ (.compute (.finishOk p _ rfl))))
  | factoryReset =>
    exact .accept rfl rfl (.transact p rfl rfl (.inl rfl) (.finishError p) fun _ _ =>
      .setSession _ (.finishOk p _ rfl))
  | status => exact .acceptPure (.compute (.respond rfl))
  | setAltitude w => exact .setterRule p rfl
  | getAltitude => exact .getterRule p rfl
  | setTempOffset w => exact .setterRule p rfl
  | getTempOffset => exact .getterRule p rfl
  | setAutoCal w => exact .setterRule p rfl

end Sys2Proof.Machine
end

section
/-! What the discipline of a rule guarantees: what is true of the state before each line of a rule, and of the state
in which the operation ends. -/

namespace Sys2Proof.Machine

/-! ### Frames and responses -/

theorem frame_length (s : State) (w : Word) (p : List Byte) :
    (s.frame w p).length = p.length + 2 + (frameTrailer (dialectOf s.params.variant) p).length := by
  simp [State.frame, encodeFrame]
  omega

theorem frameTrailer_length_le (d : Dialect) (p : List Byte) : (frameTrailer d p).length ≤ 1 := by
  cases d <;> cases p <;> simp [frameTrailer]

/-- An error that the block can raise is a legal response. -/
theorem legalResponse_of_failure {f : Failure} (h : f ∈ legalFailures) : legalResponse f.frame :=
  .inr (.inr (List.mem_map_of_mem h))

theorem writeFailure_legal {t : Nat} (h : t = 0 ∨ t = 1) : writeFailure t ∈ legalFailures := by
  rcases h with rfl | rfl <;> simp [legalFailures]

theorem readFailure_legal {t : Nat} (h : t = 0 ∨ t = 1) : readFailure t ∈ legalFailures := by
  rcases h with rfl | rfl <;> simp [legalFailures]

theorem checksumFailure_legal {t : Nat} (h : t = 0 ∨ t = 1) : checksumFailure t ∈ legalFailures := by
  rcases h with rfl | rfl <;> simp [legalFailures]

/-- Every payload the operation sends fits a length field N (R81). -/
def payloadsFit (i : Instr) : Prop := ∀ e ∈ commandsSent i, e.2.length ≤ 255

/-- A frame of a payload that fits has 2 to 258 Bytes (20_memory.md R55). -/
theorem frame_length_legal {i : Instr} {k : Nat} {c : CmdName} {p : List Byte} (s : State) (w : Word)
    (hc : (commandsSent i)[k]? = some (c, p)) (hp : payloadsFit i) :
    2 ≤ (s.frame w p).length ∧ (s.frame w p).length ≤ 258 := by
  have payload : p.length ≤ 255 := hp (c, p) (List.mem_of_getElem? hc)
  have trailer := frameTrailer_length_le (dialectOf s.params.variant) p
  have total := frame_length s w p
  omega

/-! ### The bus record of an operation -/

/-- The access that `logAccess` records. -/
def State.access (u : State) (k : BusKind) (n : Nat) (bytes : List Byte) (e : BusEnd) : BusAccess :=
  { kind := k, addr := u.params.addr, len := n, bytes := bytes, time := u.now, deadline := u.readyAt, outcome := e }

/-- The deadline `d` of operation i begun at s with the accesses `new` made since: the old one, or the time of a
successful write plus the settling time of its command (10_state.md R25). -/
def DeadlineFrom (i : Instr) (s : State) (new : List BusAccess) (d : Nat) : Prop :=
  d = s.readyAt ∨ ∃ (k : Nat) (b : BusAccess) (c : CmdName) (w : Word) (p : List Byte),
    (new.filter (·.kind == .write))[k]? = some b ∧ (needsOf i)[k]? = some c ∧
      commandWord s.params c = some w ∧ b.bytes = s.frame w p ∧ b.outcome = .ok ∧ d = b.time + settling s.params c

/-- Later accesses do not renumber earlier writes. -/
theorem DeadlineFrom.append {i : Instr} {s : State} {new : List BusAccess} {d : Nat} (h : DeadlineFrom i s new d)
    (b : BusAccess) : DeadlineFrom i s (new ++ [b]) d := by
  rcases h with h | ⟨k, a, c, w, p, hk, rest⟩
  · exact .inl h
  · refine .inr ⟨k, a, c, w, p, ?_, rest⟩
    obtain ⟨hlt, -⟩ := List.getElem?_eq_some_iff.mp hk
    rw [List.filter_append, List.getElem?_append_left hlt, hk]

/-! ### States of an operation -/

/-- u is a state that operation i begun at s reaches, with the bus accesses `new` made since. -/
structure Underway (i : Instr) (s : State) (new : List BusAccess) (u : State) : Prop where
  cur : u.cur = i
  params : u.params = s.params
  taken : u.taken = s.taken
  busLog : u.busLog = s.busLog ++ new
  legal : payloadsFit i → ∀ b ∈ new, b.legal s.params.addr
  deadline : DeadlineFrom i s new u.readyAt
  txbuf : payloadsFit i → s.txbuf.length ≤ 258 → u.txbuf.length ≤ 258
  rxbuf : s.rxbuf.length ≤ 18 → u.rxbuf.length ≤ 18

/-- SESSION is one that a host may observe if it was so at s (10_state.md R24). -/
def observableFrom (s u : State) : Prop := s.session ≠ .singleShotPending → u.session ≠ .singleShotPending

/-- u is a state before a line at stage g. -/
structure Tracks (i : Instr) (s : State) (g : Stage) (new : List BusAccess) (u : State) : Prop
    extends Underway i s new u where
  phase : u.phase = .exec
  failed : u.failed = none
  accepted : g.accepted = true → s.supports i
  framed : g.framed = true → u.txWritten = true ∧ ∃ c p w, (commandsSent i)[g.sent]? = some (c, p) ∧
    commandWord s.params c = some w ∧ u.txbuf = s.frame w p
  settled : g.settled = true → u.readyAt ≤ u.now
  filled : g.filled = true → u.rxWritten = true
  session : g.pending = false → observableFrom s u
  sent : (new.filter (·.kind == .write)).length = g.sent

/-- u is a state before a micro-step of an error part, after the failure f. -/
structure Failing (i : Instr) (s : State) (pending : Bool) (f : PendingFailure) (new : List BusAccess) (u : State) :
    Prop extends Underway i s new u where
  phase : u.phase = .exec
  failed : u.failed = some f
  legalFailure : f.failure ∈ legalFailures
  session : pending = false → observableFrom s u

/-- t is a state in which operation i begun at s has ended: with a legal response, or cut by RESET. -/
structure Ended (i : Instr) (s : State) (new : List BusAccess) (t : State) : Prop where
  phase : t.phase = .idle
  stepIndex : t.stepIndex = 0
  noLocals : t.words = [] ∧ t.data = [] ∧ t.failed = none
  params : t.params = s.params
  taken : t.taken = s.taken
  busLog : t.busLog = s.busLog ++ new
  legal : payloadsFit i → ∀ b ∈ new, b.legal s.params.addr
  txbuf : payloadsFit i → s.txbuf.length ≤ 258 → t.txbuf.length ≤ 258
  rxbuf : s.rxbuf.length ≤ 18 → t.rxbuf.length ≤ 18
  session : observableFrom s t
  outcome : (legalResponse t.resp ∧ DeadlineFrom i s new t.readyAt) ∨
    (t.resp = [] ∧ t.session = .stopped ∧ t.readyAt = 0)

section
variable {i : Instr} {s u : State} {g : Stage} {new : List BusAccess} {pending : Bool} {f : PendingFailure}

/-! ### What each operation on the state keeps -/

theorem Underway.begin (i : Instr) (s : State) : Underway i s [] (s.begin i) where
  cur := rfl
  params := rfl
  taken := rfl
  busLog := by simp
  legal := by simp
  deadline := .inl rfl
  txbuf := fun _ h => h
  rxbuf := fun h => h

theorem Underway.tick (h : Underway i s new u) : Underway i s new u.tick := { h with }

theorem Underway.respondWith (h : Underway i s new u) (hs : observableFrom s u) {frame : List Byte}
    (hf : legalResponse frame) : Ended i s new (u.respondWith frame) :=
  { h with
    phase := rfl
    stepIndex := rfl
    noLocals := ⟨rfl, rfl, rfl⟩
    session := hs
    outcome := .inl ⟨hf, h.deadline⟩ }

theorem Underway.raise (h : Underway i s new u) (hs : observableFrom s u) {f : Failure} (hf : f ∈ legalFailures) :
    Ended i s new (u.raise f) :=
  h.respondWith hs (legalResponse_of_failure hf)

theorem Underway.onReset (h : Underway i s new u) : Ended i s new u.onReset :=
  { h with
    phase := rfl
    stepIndex := rfl
    noLocals := ⟨rfl, rfl, rfl⟩
    txbuf := fun _ _ => by simp
    rxbuf := fun _ => by simp
    session := fun _ => by simp
    outcome := .inr ⟨rfl, rfl, rfl⟩ }

theorem Underway.logAccess (h : Underway i s new u) (k : BusKind) (n : Nat) (bytes : List Byte) (e : BusEnd)
    (hl : payloadsFit i → (u.access k n bytes e).legal s.params.addr) :
    Underway i s (new ++ [u.access k n bytes e]) (u.logAccess k n bytes e) :=
  { h with
    busLog := by rw [← List.append_assoc, ← h.busLog]; rfl
    legal := fun hp b hb => by
      rcases List.mem_append.mp hb with hb | hb
      · exact h.legal hp b hb
      · exact List.mem_singleton.mp hb ▸ hl hp
    deadline := h.deadline.append _ }

theorem Underway.failWith (h : Underway i s new u) (hp : u.phase = .exec) {f : Failure} (hf : f ∈ legalFailures)
    (hs : pending = false → observableFrom s u) :
    Failing i s pending { failure := f, atStep := u.stepIndex } new (u.failWith f) :=
  { toUnderway := { h with }, phase := hp, failed := rfl, legalFailure := hf, session := hs }

theorem Tracks.begin (i : Instr) (s : State) : Tracks i s .start [] (s.begin i) where
  toUnderway := .begin i s
  phase := rfl
  failed := rfl
  accepted := nofun
  framed := nofun
  settled := nofun
  filled := nofun
  session := fun _ h => h
  sent := rfl

theorem Tracks.tick (h : Tracks i s g new u) : Tracks i s g new u.tick :=
  { h with toUnderway := h.toUnderway.tick, settled := fun hg => Nat.le_add_right_of_le (h.settled hg) }

theorem Tracks.advance (h : Tracks i s g new u) : Tracks i s g new u.advance :=
  { h with toUnderway := { h.toUnderway with } }

/-! ### Bus accesses -/

/-- A write of TXBUF before which the discipline is kept is legal, however it ends. -/
theorem Tracks.logWrite (h : Tracks i s g new u) (hf : g.framed = true) (hs : g.settled = true) (e : BusEnd) :
    Underway i s (new ++ [u.access .write u.txbuf.length u.txbuf e])
      (u.logAccess .write u.txbuf.length u.txbuf e) := by
  obtain ⟨-, c, p, w, hc, -, ht⟩ := h.framed hf
  refine h.logAccess _ _ _ _ fun hp => ?_
  obtain ⟨low, high⟩ := frame_length_legal s w hc hp
  rw [← ht] at low high
  exact ⟨congrArg Params.addr h.params, h.settled hs, .inl ⟨rfl, low, high, rfl⟩⟩

/-- A read before which the discipline is kept is legal, however it ends. -/
theorem Tracks.logRead (h : Tracks i s g new u) (hs : g.settled = true) {n : Nat} (hn : n = 3 ∨ n = 9 ∨ n = 18)
    {bytes : List Byte} {e : BusEnd} (hb : e = .ok → bytes.length = n) :
    Underway i s (new ++ [u.access .read n bytes e]) (u.logAccess .read n bytes e) :=
  h.logAccess _ _ _ _ fun _ => ⟨congrArg Params.addr h.params, h.settled hs, .inr ⟨rfl, hn, hb⟩⟩

/-- The deadline that a successful write sets is the one R25 gives it. -/
theorem Tracks.deadline_of_write (h : Tracks i s g new u) (hf : g.framed = true) {c : CmdName} {p : List Byte}
    (hc : (commandsSent i)[g.sent]? = some (c, p)) :
    DeadlineFrom i s (new ++ [u.access .write u.txbuf.length u.txbuf .ok]) (u.now + settling u.params c) := by
  obtain ⟨-, c', p', w, hc', hw, ht⟩ := h.framed hf
  obtain ⟨rfl, rfl⟩ : c' = c ∧ p' = p := by simpa [hc'] using hc
  refine .inr ⟨g.sent, u.access .write u.txbuf.length u.txbuf .ok, c', w, p', ?_, needsOf_of_sent hc', hw, ht, rfl,
    by rw [h.params]; rfl⟩
  rw [List.filter_append, ← h.sent]
  simp [State.access]

end

/-! ### What one line of a disciplined rule can do -/

/-- After a line: the operation has ended, or the line has failed and its error part is due, or the next line is. -/
inductive LineOutcome (i : Instr) (s : State) (g : Stage) (l : Line) (rest : List Line) (v : State) : Prop
  | ended {new : List BusAccess} (h : Ended i s new v)
  | failed {f : PendingFailure} {new : List BusAccess} (h : Failing i s g.pending f new v)
      (he : ErrorPart g.pending l.onError)
  | goesOn {g' : Stage} {new : List BusAccess} (hr : RuleOk i g' rest) (h : Tracks i s g' new v)

section
variable {i : Instr} {s u : State} {g : Stage} {new : List BusAccess} {l : Line} {rest : List Line}

/-- RESET at a line ends the operation, a bus access that it cuts being a legal one. -/
theorem Tracks.abandon_ended (h : Tracks i s g new u) (hr : RuleOk i g (l :: rest)) :
    ∃ new', Ended i s new' (abandon l.act u).onReset := by
  cases hr with
  | write hf hs => exact ⟨_, (h.logWrite hf hs .abandoned).onReset⟩
  | read hs hn => exact ⟨_, (h.logRead hs hn (e := .abandoned) nofun).onReset⟩
  | _ => exact ⟨new, h.onReset⟩

/-- The effect of a line. -/
theorem Tracks.perform_outcome (h : Tracks i s g new u) (hr : RuleOk i g (l :: rest)) (d : Draw) :
    LineOutcome i s g l rest (perform l.act d u) := by
  cases hr with
  | @accept _ _ needs allowed e hn hp hr =>
    have obs := h.session hp
    rcases acceptChecks_cases needs allowed e u with
      ⟨_, he⟩ | ⟨hs, ⟨_, ⟨_, he⟩ | ⟨_, he⟩⟩ | ⟨_, ⟨_, _, he⟩ | ⟨_, he⟩⟩⟩ <;> simp only [line, perform, he]
    · exact .ended (h.raise obs (by simp [legalFailures]))
    · exact .ended (h.respondWith obs (.inr (.inl rfl)))
    · exact .ended (h.raise obs (by simp [legalFailures]))
    · exact .ended (h.raise obs (by simp [legalFailures]))
    · exact .goesOn hr { h.advance with accepted := fun _ => by rwa [h.params, hn] at hs }
  | acceptPure hr => exact .goesOn hr h.advance
  | @loadFrame _ _ c p ha hc hr =>
    have needed : commandWord u.params c ≠ none :=
      h.params ▸ h.accepted ha c (List.mem_of_getElem? (needsOf_of_sent hc))
    rcases loadFrame_cases c p u with ⟨w, hw, he⟩ | ⟨hw, _⟩
    · have frame : u.frame w p = s.frame w p := by simp only [State.frame, h.params]
      simp only [line, perform, he, frame]
      exact .goesOn hr { h with
        toUnderway := { h.toUnderway with txbuf := fun hp _ => (frame_length_legal s w hc hp).2 }
        framed := fun _ => ⟨rfl, c, p, w, hc, h.params ▸ hw, rfl⟩ }
    · exact absurd hw needed
  | waitReady hr =>
    exact .goesOn hr { h with
      toUnderway := { h.toUnderway with }
      settled := fun _ => (waitReady_spec u).2.1 }
  | @write _ _ c p t onError hf hs hc ht he hr =>
    rcases busWrite_cases c t d u with ⟨_, e⟩ | ⟨_, e⟩ <;> simp only [perform, e]
    · exact .goesOn hr { h with
        toUnderway := { h.logWrite hf hs .ok with deadline := h.deadline_of_write hf hc }
        framed := fun contra => by cases contra
        settled := fun contra => by cases contra
        sent := by rw [List.filter_append, List.length_append, h.sent]; rfl }
    · exact .failed ((h.logWrite hf hs .fail).failWith h.phase (writeFailure_legal ht) h.session) he
  | @read _ _ n t onError hs hn ht he hr =>
    rcases busRead_cases n t d u with ⟨_, e⟩ | ⟨_, e⟩ <;> simp only [perform, e]
    · have room : n ≤ 18 := by omega
      have bytes : (readBytes d u.drawn n).length = n := readBytes_length d u.drawn n
      exact .goesOn hr { h with
        toUnderway := { h.logRead hs hn fun _ => bytes with rxbuf := fun _ => bytes.trans_le room }
        filled := fun _ => rfl
        sent := by rw [List.filter_append, List.length_append, h.sent]; rfl }
    · exact .failed ((h.logRead hs hn (e := .fail) nofun).failWith h.phase (readFailure_legal ht) h.session) he
  | @decodeBuffer _ _ n t onError hf ht he hr =>
    rcases decodeInto_cases u.rxbuf n t u with ⟨_, _, e⟩ | ⟨_, e⟩ <;> simp only [perform, e]
    · exact .goesOn hr { h with toUnderway := { h.toUnderway with } }
    · exact .failed (h.failWith h.phase (checksumFailure_legal ht) h.session) he
  | @decodeOperand _ _ raw k onError he hr =>
    rcases decodeInto_cases raw k 0 u with ⟨_, _, e⟩ | ⟨_, e⟩ <;> simp only [perform, e]
    · exact .goesOn hr { h with toUnderway := { h.toUnderway with } }
    · exact .failed (h.failWith h.phase (checksumFailure_legal (.inl rfl)) h.session) he
  | setSession x hr =>
    exact .goesOn hr { h with
      toUnderway := { h.toUnderway with }
      session := fun hx _ => of_decide_eq_false hx }
  | compute hr => exact .goesOn hr { h with toUnderway := { h.toUnderway with } }
  | respond hp => exact .ended (h.respondWith (h.session hp) (.inl rfl))

/-- Everything one line of a disciplined rule can do, RESET included. -/
theorem Tracks.line_outcome (h : Tracks i s g new u) (hr : RuleOk i g (l :: rest)) :
    LineOutcome i s g l rest (runAct l.act u) := by
  rcases runAct_cases l.act u with ⟨_, e⟩ | ⟨_, e⟩ <;> rw [e]
  · obtain ⟨_, ended⟩ := h.tick.abandon_ended hr
    exact .ended ended
  · exact h.tick.perform_outcome hr _

/-- No line of a disciplined rule reads a buffer before it was written (93_implementation_defined.md I11). -/
theorem Tracks.readsUnwritten_eq_false (h : Tracks i s g new u) (hr : RuleOk i g (l :: rest)) :
    readsUnwritten l.act u = false := by
  cases hr with
  | write hf => simp [readsUnwritten, (h.framed hf).1]
  | decodeBuffer hf => simp [readsUnwritten, h.filled hf]
  | _ => rfl

end

/-! ### What follows a micro-step or a line -/

theorem afterAct_of_idle (next : State → State) {u : State} (h : u.phase = .idle) : afterAct next u = u := by
  simp [afterAct, h]

theorem afterAct_of_exec (next : State → State) {u : State} (h : u.phase = .exec) : afterAct next u = next u := by
  simp [afterAct, h]

theorem afterLine_of_idle (onError : List Act) (next : State → State) {u : State} (h : u.phase = .idle) :
    afterLine onError next u = u := by
  simp [afterLine, h]

theorem afterLine_of_failed (onError : List Act) (next : State → State) {u : State} {f : PendingFailure}
    (h : u.phase = .exec) (hf : u.failed = some f) : afterLine onError next u = runActs onError u := by
  simp [afterLine, h, hf]

theorem afterLine_of_ok (onError : List Act) (next : State → State) {u : State} (h : u.phase = .exec)
    (hf : u.failed = none) : afterLine onError next u = next u := by
  simp [afterLine, h, hf]

/-! ### Error parts -/

section
variable {i : Instr} {s u : State} {g : Stage} {new : List BusAccess} {pending : Bool} {f : PendingFailure}

/-- Everything one micro-step of an error part can do. -/
theorem Failing.act_outcome {a : Act} {rest : List Act} (h : Failing i s pending f new u)
    (he : ErrorPart pending (a :: rest)) :
    Ended i s new (runAct a u) ∨ ∃ pending', Failing i s pending' f new (runAct a u) ∧ ErrorPart pending' rest := by
  have noAccess : abandon a u.tick = u.tick := by cases he <;> rfl
  rcases runAct_cases a u with ⟨_, e⟩ | ⟨_, e⟩ <;> rw [e]
  · rw [noAccess]
    exact .inl h.toUnderway.tick.onReset
  · cases he with
    | waitReady hr => exact .inr ⟨pending, { h with toUnderway := { h.toUnderway with } }, hr⟩
    | setSession x hr =>
      exact .inr ⟨_, { h with
        toUnderway := { h.toUnderway with }
        session := fun hx _ => of_decide_eq_false hx }, hr⟩
    | raise =>
      have met : u.tick.failed = some f := h.failed
      simp only [perform, met]
      exact .inl (h.toUnderway.tick.raise (h.session rfl) h.legalFailure)

/-- No micro-step of an error part reads a buffer. -/
theorem ErrorPart.readsUnwritten_eq_false {a : Act} {rest : List Act} (he : ErrorPart pending (a :: rest)) (u : State) :
    readsUnwritten a u = false := by
  cases he <;> rfl

/-- An error part ends the operation. -/
theorem Failing.runActs_ended {acts : List Act} (h : Failing i s pending f new u) (he : ErrorPart pending acts) :
    Ended i s new (runActs acts u) := by
  induction acts generalizing pending u with
  | nil => cases he
  | cons a rest ih =>
    rw [runActs_cons]
    rcases h.act_outcome he with ended | ⟨_, goesOn, hr⟩
    · rw [afterAct_of_idle _ ended.phase]
      exact ended
    · rw [afterAct_of_exec _ goesOn.phase]
      exact ih goesOn hr

/-- A disciplined rule ends the operation. -/
theorem Tracks.runLines_ended {lines : List Line} (h : Tracks i s g new u) (hr : RuleOk i g lines) :
    ∃ new', Ended i s new' (runLines lines u) := by
  induction lines generalizing g new u with
  | nil => cases hr
  | cons l rest ih =>
    rw [runLines_cons]
    cases h.line_outcome hr with
    | ended ended =>
      rw [afterLine_of_idle _ _ ended.phase]
      exact ⟨_, ended⟩
    | failed failing he =>
      rw [afterLine_of_failed _ _ failing.phase failing.failed]
      exact ⟨_, failing.runActs_ended he⟩
    | goesOn hr' tracks =>
      rw [afterLine_of_ok _ _ tracks.phase tracks.failed]
      exact ih tracks hr'

end

/-- How every operation ends, whatever the world does. -/
theorem exec_ended {i : Instr} {s t : State} (h : exec i s = .next t) : ∃ new, Ended i s new t := by
  rw [exec_eq_runLines] at h
  cases h
  exact (Tracks.begin i s).runLines_ended (ruleOfInstr_ok i s.params)

/-! ### The statements on responses and deadlines -/

/-- Settles O53: read off how every operation ends. -/
theorem oneLegalResponse : Obligations.OneLegalResponse := by
  intro i s t h
  obtain ⟨_, ended⟩ := exec_ended h
  exact ⟨ended.phase, ended.stepIndex, ended.taken, ended.outcome.imp_left And.left⟩

/-- Settles O52: an answered operation leaves a deadline that R25 gives, a cut one leaves RESET's 0. -/
theorem readyAtWriters : Obligations.ReadyAtWriters := by
  intro i s t h
  obtain ⟨new, ended⟩ := exec_ended h
  rcases ended.outcome with ⟨_, old | written⟩ | ⟨hr, _, h0⟩
  · exact .inl old
  · exact .inr (.inr ⟨new, ended.busLog, written⟩)
  · exact .inr (.inl ⟨hr, h0⟩)

end Sys2Proof.Machine
end

section
/-! Operation boundaries: every step from one leads to one (10_state.md R24, R26, R29; 30_encoding.md R84). -/

namespace Sys2Proof.Machine

/-! ### Requests carry payloads that fit -/

/-- A START_PERIODIC request counts its payload in one Byte (30_encoding.md R81). -/
theorem length_of_operandsOf_startPeriodic {o : Opcode} {rest payload : List Byte}
    (h : operandsOf o rest = some (.startPeriodic payload)) : payload.length ≤ 255 := by
  unfold operandsOf at h
  cases o with
  | startPeriodic =>
    cases rest with
    | nil => cases h
    | cons n p =>
      obtain ⟨hl, rfl⟩ : p.length = n.toNat ∧ p = payload := by simpa using h
      have := n.isLt
      omega
  | measDecode r => simp at h
  | setAltitude | setTempOffset | setAutoCal => rcases rest with _ | ⟨_, _ | ⟨_, _ | _⟩⟩ <;> cases h
  | frameEncode d => rcases rest with _ | ⟨_, _ | ⟨_, _ | _⟩⟩ <;> simp at h
  | crcCompute | crcVerify | frameDecode => cases rest <;> simp at h
  | _ => cases rest <;> cases h

/-- A request's operation sends only payloads that fit. -/
theorem payloadsFit_of_decodeRequest {op : Byte} {rest : List Byte} {i : Instr} (h : decodeRequest op rest = .ok i) :
    payloadsFit i := by
  obtain ⟨o, ho⟩ : ∃ o, operandsOf o rest = some i := by
    unfold decodeRequest at h
    split at h
    · cases h
    · next o _ =>
      split at h
      · cases h
      · next j hj => exact ⟨o, by cases h; exact hj⟩
  cases i with
  | startPeriodic payload => simpa [payloadsFit, commandsSent, firstCommand] using length_of_operandsOf_startPeriodic ho
  | _ => simp [payloadsFit, commandsSent, firstCommand]

/-! ### What each move of an idle block keeps -/

section
variable {s : State}

theorem State.AtBoundary.tick (h : s.AtBoundary) : s.tick.AtBoundary := { h with }

theorem State.AtBoundary.dropInput (h : s.AtBoundary) : s.dropInput.AtBoundary := { h with }

theorem State.AtBoundary.elapse (h : s.AtBoundary) (ms : Nat) : (elapse ms s).AtBoundary := { h with }

theorem State.AtBoundary.onReset (h : s.AtBoundary) : s.onReset.AtBoundary :=
  { h with
    phase := rfl
    stepIndex := rfl
    noLocals := ⟨rfl, rfl, rfl⟩
    session := by simp
    txbuf := by simp
    rxbuf := by simp
    resp := .inl rfl }

theorem State.AtBoundary.raise (h : s.AtBoundary) {f : Failure} (hf : f ∈ legalFailures) : (s.raise f).AtBoundary :=
  { h with
    phase := rfl
    stepIndex := rfl
    noLocals := ⟨rfl, rfl, rfl⟩
    resp := .inr (legalResponse_of_failure hf) }

theorem State.AtBoundary.takeResponse (h : s.AtBoundary) (hr : s.resp ≠ []) : (takeResponse s).AtBoundary :=
  { h with
    resp := .inl rfl
    taken := fun r hm => by
      rcases List.mem_append.mp hm with hm | hm
      · exact h.taken r hm
      · exact List.mem_singleton.mp hm ▸ h.resp.resolve_left hr }

theorem badRequestFailure_legal (e : BadRequest) : badRequestFailure e ∈ legalFailures := by
  cases e <;> simp [badRequestFailure, legalFailures]

theorem State.AtBoundary.refuseRequest (h : s.AtBoundary) (e : BadRequest) : (refuseRequest e s).AtBoundary := by
  rcases refuseRequest_cases e s with ⟨_, he⟩ | ⟨_, he⟩ <;> rw [he]
  · exact h.tick.onReset
  · exact h.tick.raise (badRequestFailure_legal e)

theorem State.AtBoundary.waitForRequest (h : s.AtBoundary) : (waitForRequest s).AtBoundary := by
  rcases waitForRequest_cases s with ⟨_, he⟩ | ⟨_, he⟩ <;> rw [he]
  · exact h.tick.onReset
  · exact h.tick

/-- An operation begun at a boundary ends at one. -/
theorem State.AtBoundary.exec {t : State} {i : Instr} (h : s.AtBoundary) (hp : payloadsFit i)
    (he : exec i s = .next t) : t.AtBoundary := by
  obtain ⟨new, ended⟩ := exec_ended he
  exact
    { phase := ended.phase
      stepIndex := ended.stepIndex
      noLocals := ended.noLocals
      session := ended.session h.session
      txbuf := ended.txbuf hp h.txbuf
      rxbuf := ended.rxbuf h.rxbuf
      resp := ended.outcome.elim (fun answered => .inr answered.1) fun cut => .inl cut.1
      taken := ended.taken ▸ h.taken
      busLog := by
        rw [ended.busLog, ended.params]
        exact fun b hb => (List.mem_append.mp hb).elim (h.busLog b) (ended.legal hp b) }

end

/-- Settles O46: a boundary is idle, and each of the six things an idle block can do keeps it. -/
theorem stepKeepsBoundary : Obligations.StepKeepsBoundary := by
  intro s t h hs
  rcases step_idle_next h.phase hs with rfl | ⟨hr, rfl⟩ | ⟨_, _, i, hd, he⟩ | ⟨e, rfl⟩ | ⟨ms, rfl⟩ | rfl
  · exact h.dropInput.onReset
  · exact h.takeResponse hr
  · exact h.dropInput.exec (payloadsFit_of_decodeRequest hd) he
  · exact h.dropInput.refuseRequest e
  · exact h.elapse ms
  · exact h.waitForRequest

end Sys2Proof.Machine
end

section
/-! The micro-steps of an operation one at a time: `resume` runs the lines that `exec` runs (10_state.md R27). -/

namespace Sys2Proof.Machine

/-! ### `resumeFor` -/

theorem resumeFor_idle {u : State} (h : u.phase = .idle) (n : Nat) : resumeFor n u = .next u := by
  cases n <;> simp [resumeFor, h]

theorem resumeFor_succ {u v : State} (h : u.phase = .exec) (hr : resume u = .next v) (n : Nat) :
    resumeFor (n + 1) u = resumeFor n v := by
  simp [resumeFor, h, hr]

/-- The micro-step that CUR and STEP name, where it reads no unwritten buffer. -/
theorem resume_of_currentAct {u : State} {a : Act} (ha : u.currentAct = some a) (hr : readsUnwritten a u = false) :
    resume u = .next (runAct a u) := by
  simp [resume, ha, hr]

/-! ### STEP -/

/-- A micro-step ends the operation, or it advances STEP by one and records at most its own failure. -/
theorem perform_position (a : Act) (d : Draw) (u : State) :
    (perform a d u).phase = .idle ∨ (perform a d u).stepIndex = u.stepIndex + 1 ∧
      ((perform a d u).failed = u.failed ∨ ∃ f, (perform a d u).failed = some ⟨f, u.stepIndex⟩) := by
  cases a with
  | accept needs allowed e =>
    rcases acceptChecks_cases needs allowed e u with ⟨_, h⟩ | ⟨_, ⟨_, ⟨_, h⟩ | ⟨_, h⟩⟩ | ⟨_, ⟨_, _, h⟩ | ⟨_, h⟩⟩⟩ <;>
      simp [perform, h, State.raise]
  | loadFrame c p => rcases loadFrame_cases c p u with ⟨_, _, h⟩ | ⟨_, h⟩ <;> simp [perform, h, State.raise]
  | write c t => rcases busWrite_cases c t d u with ⟨_, h⟩ | ⟨_, h⟩ <;> simp [perform, h]
  | read n t => rcases busRead_cases n t d u with ⟨_, h⟩ | ⟨_, h⟩ <;> simp [perform, h]
  | decodeBuffer n t => rcases decodeInto_cases u.rxbuf n t u with ⟨_, _, h⟩ | ⟨_, h⟩ <;> simp [perform, h]
  | decodeOperand raw k => rcases decodeInto_cases raw k 0 u with ⟨_, _, h⟩ | ⟨_, h⟩ <;> simp [perform, h]
  | respond f => exact .inl rfl
  | raise => cases h : u.failed <;> simp [perform, h, State.raise]
  | acceptPure => exact .inr ⟨rfl, .inl rfl⟩
  | waitReady => exact .inr ⟨rfl, .inl rfl⟩
  | setSession x => exact .inr ⟨rfl, .inl rfl⟩
  | compute f => exact .inr ⟨rfl, .inl rfl⟩

theorem runAct_position {a : Act} {u : State} (h : (runAct a u).phase = .exec) :
    (runAct a u).stepIndex = u.stepIndex + 1 ∧
      ((runAct a u).failed = u.failed ∨ ∃ f, (runAct a u).failed = some ⟨f, u.stepIndex⟩) := by
  rcases runAct_cases a u with ⟨_, e⟩ | ⟨_, e⟩ <;> rw [e] at h ⊢
  · simp at h
  · exact (perform_position a _ u.tick).resolve_left (by simp [h])

/-! ### The lines of a rule and their error parts -/

section
variable {i : Instr} {s u : State} {g : Stage} {new : List BusAccess} {pending : Bool} {f : PendingFailure}

/-- The line at STEP is the next one to run. -/
theorem Tracks.currentAct {l : Line} {rest : List Line} (h : Tracks i s g new u)
    (hl : (ruleOfInstr i s.params).drop u.stepIndex = l :: rest) : u.currentAct = some l.act := by
  have atStep : (ruleOfInstr i s.params)[u.stepIndex]? = some l := by rw [← List.head?_drop, hl, List.head?_cons]
  simp [State.currentAct, h.failed, h.cur, h.params, atStep]

/-- After an error at an earlier STEP, the micro-steps are those of the failed line's error part. -/
theorem Failing.currentAct {l : Line} {a : Act} {rest : List Act} {n : Nat} (h : Failing i s pending f new u)
    (hl : (ruleOfInstr i s.params)[f.atStep]? = some l) (hn : u.stepIndex = f.atStep + 1 + n)
    (hd : l.onError.drop n = a :: rest) : u.currentAct = some a := by
  have due : l.onError[n]? = some a := by rw [← List.head?_drop, hd, List.head?_cons]
  simp [State.currentAct, h.failed, h.cur, h.params, hl, hn, due]

/-- The micro-steps of an error part, one at a time. -/
theorem Failing.resumeFor_runActs {l : Line} {acts : List Act} {n : Nat} (h : Failing i s pending f new u)
    (he : ErrorPart pending acts) (hl : (ruleOfInstr i s.params)[f.atStep]? = some l)
    (hn : u.stepIndex = f.atStep + 1 + n) (hd : l.onError.drop n = acts) :
    ∃ m, resumeFor m u = .next (runActs acts u) := by
  induction acts generalizing pending u n with
  | nil => cases he
  | cons a rest ih =>
    have hv : resume u = .next (runAct a u) :=
      resume_of_currentAct (h.currentAct hl hn hd) (he.readsUnwritten_eq_false u)
    rw [runActs_cons]
    rcases h.act_outcome he with ended | ⟨_, goesOn, hr⟩
    · rw [afterAct_of_idle _ ended.phase]
      exact ⟨1, resumeFor_succ h.phase hv 0⟩
    · rw [afterAct_of_exec _ goesOn.phase]
      have hn' : (runAct a u).stepIndex = f.atStep + 1 + (n + 1) := by
        rw [(runAct_position goesOn.phase).1, hn, Nat.add_assoc]
      have hd' : l.onError.drop (n + 1) = rest := by rw [← List.drop_drop, hd, List.drop_one, List.tail_cons]
      obtain ⟨m, hm⟩ := ih goesOn hr hn' hd'
      exact ⟨m + 1, (resumeFor_succ h.phase hv m).trans hm⟩

/-- The micro-steps of a rule, one at a time from the line at STEP. -/
theorem Tracks.resumeFor_runLines {lines : List Line} (h : Tracks i s g new u) (hr : RuleOk i g lines)
    (hl : (ruleOfInstr i s.params).drop u.stepIndex = lines) : ∃ m, resumeFor m u = .next (runLines lines u) := by
  induction lines generalizing g new u with
  | nil => cases hr
  | cons l rest ih =>
    have hv : resume u = .next (runAct l.act u) :=
      resume_of_currentAct (h.currentAct hl) (h.readsUnwritten_eq_false hr)
    rw [runLines_cons]
    cases h.line_outcome hr with
    | ended ended =>
      rw [afterLine_of_idle _ _ ended.phase]
      exact ⟨1, resumeFor_succ h.phase hv 0⟩
    | @failed f _ failing he =>
      obtain ⟨hstep, same | ⟨f', hf'⟩⟩ := runAct_position failing.phase
      · simp [failing.failed, h.failed] at same
      · obtain rfl : f = ⟨f', u.stepIndex⟩ := by simpa [failing.failed] using hf'
        have atStep : (ruleOfInstr i s.params)[u.stepIndex]? = some l := by
          rw [← List.head?_drop, hl, List.head?_cons]
        obtain ⟨m, hm⟩ := failing.resumeFor_runActs (n := 0) he atStep hstep rfl
        rw [afterLine_of_failed _ _ failing.phase failing.failed]
        exact ⟨m + 1, (resumeFor_succ h.phase hv m).trans hm⟩
    | goesOn hr' tracks =>
      have hl' : (ruleOfInstr i s.params).drop (runAct l.act u).stepIndex = rest := by
        rw [(runAct_position tracks.phase).1, ← List.drop_drop, hl, List.drop_one, List.tail_cons]
      obtain ⟨m, hm⟩ := ih tracks hr' hl'
      rw [afterLine_of_ok _ _ tracks.phase tracks.failed]
      exact ⟨m + 1, (resumeFor_succ h.phase hv m).trans hm⟩

end

/-- Settles O55: at ACCEPT, STEP is 0 and the whole rule is still to run. -/
theorem microStepsMakeOperation : Obligations.MicroStepsMakeOperation := by
  intro i s
  rw [exec_eq_runLines]
  exact (Tracks.begin i s).resumeFor_runLines (ruleOfInstr_ok i s.params) rfl

end Sys2Proof.Machine
end

section
/-! SINGLE_SHOT, micro-step by micro-step (43_session.md R138): where SESSION is SINGLE_SHOT_PENDING. -/

namespace Sys2Proof.Machine

/-! ### Its lines -/

/-- What SINGLE_SHOT does with an error of its second round trip: it returns to STOPPED first. -/
def secondErrorPart (p : Params) : List Act := .setSession .stopped :: finishError p

/-- A measurement has words to read (00_scope.md R10). -/
theorem responseWords_readMeasurement_pos (v : Variant) : ∃ n, responseWords v .readMeasurement = n + 1 := by
  cases v <;> exact ⟨_, rfl⟩

/-- The lines of SINGLE_SHOT, in the numbering of its micro-steps. -/
theorem ruleSingleShot_eq (p : Params) : ∃ n, ruleSingleShot p =
    [line (.accept [.singleShot, .readMeasurement] [.stopped] .wrongState),
      line (.loadFrame .singleShot []),
      line .waitReady,
      { act := .write .singleShot 0, onError := finishError p },
      line (.setSession .singleShotPending),
      line (.loadFrame .readMeasurement []),
      line .waitReady,
      { act := .write .readMeasurement 1, onError := secondErrorPart p },
      line .waitReady,
      { act := .read (3 * (n + 1)) 1, onError := secondErrorPart p },
      { act := .decodeBuffer (n + 1) 1, onError := secondErrorPart p },
      line (.setSession .stopped),
      line (.compute measurementData)] ++ finishOk p computedData := by
  obtain ⟨n, hn⟩ := responseWords_readMeasurement_pos p.variant
  have oneWay : responseWords p.variant .singleShot = 0 := rfl
  exact ⟨n, by simp only [ruleSingleShot, transact, oneWay, hn, transactRead, secondErrorPart, List.cons_append,
    List.nil_append]⟩

/-! ### The state before its k-th micro-step -/

/-- One more micro-step after k of them. -/
theorem resumeFor_last {k : Nat} {a u v : State} (h : resumeFor k a = .next u) (hp : u.phase = .exec)
    (hv : resume u = .next v) : resumeFor (k + 1) a = .next v := by
  induction k generalizing a with
  | zero =>
    cases h
    exact resumeFor_succ hp hv 0
  | succ k ih =>
    cases ha : a.phase with
    | idle =>
      rw [resumeFor_idle ha] at h
      cases h
      simp [ha] at hp
    | exec =>
      cases hr : resume a with
      | next b =>
        rw [resumeFor_succ ha hr] at h ⊢
        exact ih h
      | fault f => simp [resumeFor, ha, hr] at h
      | refused r => simp [resumeFor, ha, hr] at h

/-- u is the state after k micro-steps of a SINGLE_SHOT begun at s that no RESET cuts, with SESSION = x and the
failure f, if any. -/
structure ShotAt (s : State) (k : Nat) (x : Session) (f : Option PendingFailure) (u : State) : Prop where
  reached : resumeFor k (s.begin .singleShot) = .next u
  phase : u.phase = .exec
  stepIndex : u.stepIndex = k
  cur : u.cur = .singleShot
  params : u.params = s.params
  draws : u.draws = s.draws.drop k
  drawn : u.drawn = s.drawn + k
  session : u.session = x
  failed : u.failed = f

/-- v is u after a micro-step that did not end the operation. -/
def State.advancesTo (u v : State) : Prop :=
  v.phase = u.phase ∧ v.stepIndex = u.stepIndex + 1 ∧ v.cur = u.cur ∧ v.params = u.params ∧
    v.draws = u.tick.draws ∧ v.drawn = u.tick.drawn

/-- SESSION is x after every number of micro-steps from j to m. -/
def ShotHolds (s : State) (x : Session) (j m : Nat) : Prop := ∀ k, j ≤ k → k ≤ m → ∃ f u, ShotAt s k x f u

section
variable {s u : State} {k : Nat} {x : Session} {f : Option PendingFailure}

theorem ShotHolds.single (h : ShotAt s k x f u) : ShotHolds s x k k := fun j hj hk => by
  obtain rfl : j = k := by omega
  exact ⟨f, u, h⟩

theorem ShotHolds.append {j m : Nat} (hs : ShotHolds s x j k) (hs' : ShotHolds s x (k + 1) m) : ShotHolds s x j m :=
  fun n hj hm => (Nat.lt_or_ge k n).elim (fun hk => hs' n hk hm) (hs n hj)

theorem ShotHolds.join {j m : Nat} (hs : ShotHolds s x j k) (hs' : ShotHolds s x k m) : ShotHolds s x j m :=
  hs.append fun n hk hm => hs' n (Nat.le_of_succ_le hk) hm

theorem ShotHolds.snoc {j : Nat} (hs : ShotHolds s x j k) (h : ShotAt s (k + 1) x f u) : ShotHolds s x j (k + 1) :=
  hs.append (.single h)

/-- The line that STEP names. -/
theorem ShotAt.currentAct_line (h : ShotAt s k x none u) {l : Line} (hl : (ruleSingleShot s.params)[k]? = some l) :
    u.currentAct = some l.act := by
  simp [State.currentAct, h.failed, h.cur, h.params, h.stepIndex, ruleOfInstr, hl]

/-- The first micro-step of the error part of the line before STEP. -/
theorem ShotAt.currentAct_error {e : Failure} (h : ShotAt s (k + 1) x (some ⟨e, k⟩) u) {l : Line}
    (hl : (ruleSingleShot s.params)[k]? = some l) : u.currentAct = l.onError[0]? := by
  simp [State.currentAct, h.failed, h.cur, h.params, h.stepIndex, ruleOfInstr, hl]

/-- One more micro-step, of which only SESSION and the failure are told apart. -/
theorem ShotAt.step (h : ShotAt s k x f u) (hq : (s.drawAt k).reset = false) {a : Act} (ha : u.currentAct = some a)
    (hr : readsUnwritten a u = false) {v : State} (hv : perform a (s.drawAt k) u.tick = v) (hs : u.advancesTo v) :
    ShotAt s (k + 1) v.session v.failed v := by
  have draw : u.drawAt 0 = s.drawAt k := by
    simp only [State.drawAt, h.draws, h.drawn, drawFrom_drop, Nat.add_zero]
  have quiet : runAct a u = v := by rw [runAct_of_quiet (draw ▸ hq), draw, hv]
  obtain ⟨hphase, hstep, hcur, hparams, hdraws, hdrawn⟩ := hs
  exact
    { reached := resumeFor_last h.reached h.phase (quiet ▸ resume_of_currentAct ha hr)
      phase := hphase.trans h.phase
      stepIndex := by rw [hstep, h.stepIndex]
      cur := hcur.trans h.cur
      params := hparams.trans h.params
      draws := by rw [hdraws, State.tick_draws, h.draws, List.drop_drop]
      drawn := by rw [hdrawn, State.tick_drawn, h.drawn, Nat.add_assoc]
      session := rfl
      failed := rfl }

/-! ### Its kinds of micro-step -/

theorem ShotAt.setSession (h : ShotAt s k x f u) (hq : (s.drawAt k).reset = false) {y : Session}
    (ha : u.currentAct = some (.setSession y)) : ∃ v, ShotAt s (k + 1) y f v :=
  ⟨_, h.failed ▸ h.step hq ha rfl rfl ⟨rfl, rfl, rfl, rfl, rfl, rfl⟩⟩

theorem ShotAt.waitReady (h : ShotAt s k x f u) (hq : (s.drawAt k).reset = false)
    (ha : u.currentAct = some .waitReady) : ∃ v, ShotAt s (k + 1) x f v ∧ v.txWritten = u.txWritten := by
  have next := h.step hq ha rfl rfl ⟨rfl, rfl, rfl, rfl, rfl, rfl⟩
  exact ⟨Machine.waitReady u.tick, h.session ▸ h.failed ▸ next, rfl⟩

theorem ShotAt.loadFrame (h : ShotAt s k x f u) (hq : (s.drawAt k).reset = false) {c : CmdName} {p : List Byte}
    {w : Word} (ha : u.currentAct = some (.loadFrame c p)) (hw : commandWord s.params c = some w) :
    ∃ v, ShotAt s (k + 1) x f v ∧ v.txWritten = true := by
  rcases loadFrame_cases c p u.tick with ⟨_, _, e⟩ | ⟨hn, _⟩
  · exact ⟨_, h.session ▸ h.failed ▸ h.step hq ha rfl e ⟨rfl, rfl, rfl, rfl, rfl, rfl⟩, rfl⟩
  · rw [State.tick_params, h.params, hw] at hn
    cases hn

/-- A WRITE of the frame in TXBUF goes on, with a failure exactly where the bus answers FAIL. -/
theorem ShotAt.write (h : ShotAt s k x none u) (hq : (s.drawAt k).reset = false) {c : CmdName} {t : Nat}
    (ha : u.currentAct = some (.write c t)) (hw : u.txWritten = true) :
    ∃ v, ShotAt s (k + 1) x (if (s.drawAt k).ok then none else some ⟨writeFailure t, k⟩) v := by
  have written : readsUnwritten (.write c t) u = false := by simp [readsUnwritten, hw]
  rcases busWrite_cases c t (s.drawAt k) u.tick with ⟨ok, e⟩ | ⟨ok, e⟩
  · have next := h.step hq ha written e ⟨rfl, rfl, rfl, rfl, rfl, rfl⟩
    exact ⟨_, by simpa [ok, h.session, h.failed] using next⟩
  · have next := h.step hq ha written e ⟨rfl, rfl, rfl, rfl, rfl, rfl⟩
    exact ⟨_, by simpa [ok, h.session, h.stepIndex] using next⟩

/-- A READ goes on: with RXBUF written, or with a failure. -/
theorem ShotAt.read (h : ShotAt s k x none u) (hq : (s.drawAt k).reset = false) {n t : Nat}
    (ha : u.currentAct = some (.read n t)) :
    ∃ v, ShotAt s (k + 1) x (if (s.drawAt k).ok then none else some ⟨readFailure t, k⟩) v ∧
      ((s.drawAt k).ok = true → v.rxWritten = true) := by
  rcases busRead_cases n t (s.drawAt k) u.tick with ⟨ok, e⟩ | ⟨ok, e⟩
  · have next := h.step hq ha rfl e ⟨rfl, rfl, rfl, rfl, rfl, rfl⟩
    exact ⟨_, by simpa [ok, h.session, h.failed] using next, fun _ => rfl⟩
  · have next := h.step hq ha rfl e ⟨rfl, rfl, rfl, rfl, rfl, rfl⟩
    exact ⟨_, by simpa [ok, h.session, h.stepIndex] using next, by simp [ok]⟩

/-- A check of the response in RXBUF goes on, with or without a failure. -/
theorem ShotAt.decodeBuffer (h : ShotAt s k x none u) (hq : (s.drawAt k).reset = false) {n t : Nat}
    (ha : u.currentAct = some (.decodeBuffer n t)) (hw : u.rxWritten = true) :
    ∃ v, ShotAt s (k + 1) x none v ∨ ShotAt s (k + 1) x (some ⟨checksumFailure t, k⟩) v := by
  have written : readsUnwritten (.decodeBuffer n t) u = false := by simp [readsUnwritten, hw]
  rcases decodeInto_cases u.tick.rxbuf n t u.tick with ⟨_, _, e⟩ | ⟨_, e⟩
  · have next := h.step hq ha written e ⟨rfl, rfl, rfl, rfl, rfl, rfl⟩
    exact ⟨_, .inl (by simpa [h.session, h.failed] using next)⟩
  · have next := h.step hq ha written e ⟨rfl, rfl, rfl, rfl, rfl, rfl⟩
    exact ⟨_, .inr (by simpa [h.session, h.stepIndex] using next)⟩

/-- The first micro-steps of a round trip, up to the WRITE: SESSION does not change. -/
theorem ShotAt.prepareWrite (h : ShotAt s k x none u) (hq : (s.drawAt k).reset = false)
    (hq' : (s.drawAt (k + 1)).reset = false) {c : CmdName} {w : Word} (hw : commandWord s.params c = some w)
    (hl : (ruleSingleShot s.params)[k]? = some (line (.loadFrame c [])))
    (hl' : (ruleSingleShot s.params)[k + 1]? = some (line .waitReady)) :
    ∃ v, ShotHolds s x k (k + 2) ∧ ShotAt s (k + 2) x none v ∧ v.txWritten = true := by
  obtain ⟨loaded, hloaded, filled⟩ := h.loadFrame hq (h.currentAct_line hl) hw
  obtain ⟨v, hv, same⟩ := hloaded.waitReady hq' (hloaded.currentAct_line hl')
  exact ⟨v, ((ShotHolds.single h).snoc hloaded).snoc hv, hv, same.trans filled⟩

/-- Once a line of the second round trip has failed, the next micro-step returns to STOPPED. -/
theorem ShotAt.stopped_of_failure {e : Failure} (h : ShotAt s (k + 1) x (some ⟨e, k⟩) u)
    (hq : (s.drawAt (k + 1)).reset = false) {a : Act}
    (hl : (ruleSingleShot s.params)[k]? = some { act := a, onError := secondErrorPart s.params }) :
    ∃ f v, ShotAt s (k + 2) .stopped f v := by
  obtain ⟨v, hv⟩ := h.setSession hq (h.currentAct_error hl)
  exact ⟨_, v, hv⟩

end

/-! ### The phases of SINGLE_SHOT -/

section
variable {s : State}

theorem ShotAt.begin (hs : s.session = .stopped) : ShotAt s 0 .stopped none (s.begin .singleShot) where
  reached := rfl
  phase := rfl
  stepIndex := rfl
  cur := rfl
  params := rfl
  draws := rfl
  drawn := rfl
  session := hs
  failed := rfl

/-- ACCEPT passes where its checks do. -/
theorem ShotAt.accepted {w v : Word} (hs : s.session = .stopped) (hw : commandWord s.params .singleShot = some w)
    (hv : commandWord s.params .readMeasurement = some v) (ht : s.onTime) (hq : (s.drawAt 0).reset = false) :
    ∃ u, ShotAt s 1 .stopped none u := by
  obtain ⟨_, lines⟩ := ruleSingleShot_eq s.params
  have h := ShotAt.begin hs
  have due : ¬ (s.params.policy = .report ∧ s.clock 1 < s.readyAt) := fun late => absurd (ht late.1) late.2.not_ge
  have pass : acceptChecks [.singleShot, .readMeasurement] [.stopped] .wrongState (s.begin .singleShot).tick =
      (s.begin .singleShot).tick.advance := by
    rw [State.clock_succ, State.clock_zero] at due
    simp [acceptChecks, hw, hv, hs, due]
  have act : (s.begin .singleShot).currentAct = some (.accept [.singleShot, .readMeasurement] [.stopped] .wrongState) :=
    h.currentAct_line (by rw [lines]; rfl)
  exact ⟨_, h.session ▸ h.failed ▸ h.step hq act rfl pass ⟨rfl, rfl, rfl, rfl, rfl, rfl⟩⟩

/-- From ACCEPT to the first write's success: SESSION stays STOPPED. -/
theorem ShotAt.firstWrite {w v : Word} (hs : s.session = .stopped) (hw : commandWord s.params .singleShot = some w)
    (hv : commandWord s.params .readMeasurement = some v) (ht : s.onTime) (hq : s.undisturbed 12)
    (ok : (s.drawAt 3).ok = true) : ∃ u, ShotAt s 4 .stopped none u ∧ ShotHolds s .stopped 0 4 := by
  obtain ⟨_, lines⟩ := ruleSingleShot_eq s.params
  obtain ⟨_, h1⟩ := ShotAt.accepted hs hw hv ht (hq 0 (by decide))
  obtain ⟨_, framed, h3, tx⟩ := h1.prepareWrite (hq 1 (by decide)) (hq 2 (by decide)) hw (by rw [lines]; rfl)
    (by rw [lines]; rfl)
  obtain ⟨u, h4⟩ := h3.write (hq 3 (by decide)) (h3.currentAct_line (by rw [lines]; rfl)) tx
  rw [ok, if_pos rfl] at h4
  exact ⟨u, h4, ((ShotHolds.single (.begin hs)).append framed).snoc h4⟩

/-- From the first write's success to the second write: SESSION becomes SINGLE_SHOT_PENDING. -/
theorem ShotAt.secondWrite {u : State} {v : Word} (h : ShotAt s 4 .stopped none u)
    (hv : commandWord s.params .readMeasurement = some v) (hq : s.undisturbed 12) :
    ShotHolds s .singleShotPending 5 8 ∧
      ∃ u', ShotAt s 8 .singleShotPending (if (s.drawAt 7).ok then none else some ⟨writeFailure 1, 7⟩) u' := by
  obtain ⟨_, lines⟩ := ruleSingleShot_eq s.params
  obtain ⟨_, h5⟩ := h.setSession (hq 4 (by decide)) (h.currentAct_line (by rw [lines]; rfl))
  obtain ⟨_, framed, h7, tx⟩ := h5.prepareWrite (hq 5 (by decide)) (hq 6 (by decide)) hv (by rw [lines]; rfl)
    (by rw [lines]; rfl)
  obtain ⟨u8, h8⟩ := h7.write (hq 7 (by decide)) (h7.currentAct_line (by rw [lines]; rfl)) tx
  exact ⟨framed.snoc h8, u8, h8⟩

/-- From the second write's success to the return to STOPPED: after the failed read, or after the check of a response
that was read, whatever it finds. -/
theorem ShotAt.readAndStop {u : State} (h : ShotAt s 8 .singleShotPending none u) (hq : s.undisturbed 12) :
    let ended := if (s.drawAt 9).ok then 11 else 10
    ShotHolds s .singleShotPending 8 ended ∧ ∃ f v, ShotAt s (ended + 1) .stopped f v := by
  obtain ⟨n, lines⟩ := ruleSingleShot_eq s.params
  obtain ⟨_, h9, -⟩ := h.waitReady (hq 8 (by decide)) (h.currentAct_line (by rw [lines]; rfl))
  obtain ⟨_, h10, rx⟩ := h9.read (hq 9 (by decide)) (h9.currentAct_line (by rw [lines]; rfl))
  have pending : ShotHolds s .singleShotPending 8 10 := ((ShotHolds.single h).snoc h9).snoc h10
  cases ok : (s.drawAt 9).ok with
  | false =>
    rw [ok, if_neg (by decide)] at h10
    exact ⟨pending, h10.stopped_of_failure (hq 10 (by decide)) (by rw [lines]; rfl)⟩
  | true =>
    rw [ok, if_pos rfl] at h10
    obtain ⟨_, h11 | h11⟩ := h10.decodeBuffer (hq 10 (by decide)) (h10.currentAct_line (by rw [lines]; rfl)) (rx ok)
    · exact ⟨pending.snoc h11, _, h11.setSession (hq 11 (by decide)) (h11.currentAct_line (by rw [lines]; rfl))⟩
    · exact ⟨pending.snoc h11, h11.stopped_of_failure (hq 11 (by decide)) (by rw [lines]; rfl)⟩

/-- What the three phases say together. -/
theorem singleShotPending_of_phases {ended : Nat} {f : Option PendingFailure} {u : State}
    (before : ShotHolds s .stopped 0 4) (pending : ShotHolds s .singleShotPending 5 ended)
    (after : ShotAt s (ended + 1) .stopped f u) (k : Nat) (hk : k ≤ ended + 1) :
    ∃ u, resumeFor k (s.begin .singleShot) = .next u ∧ u.phase = .exec ∧ u.stepIndex = k ∧
      u.session = if 5 ≤ k ∧ k ≤ ended then .singleShotPending else .stopped := by
  by_cases early : k ≤ 4
  · obtain ⟨_, v, h⟩ := before k k.zero_le early
    exact ⟨v, h.reached, h.phase, h.stepIndex, by rw [h.session, if_neg (by omega)]⟩
  · by_cases late : k ≤ ended
    · obtain ⟨_, v, h⟩ := pending k (by omega) late
      exact ⟨v, h.reached, h.phase, h.stepIndex, by rw [h.session, if_pos (by omega)]⟩
    · obtain rfl : k = ended + 1 := by omega
      exact ⟨u, after.reached, after.phase, after.stepIndex, by rw [after.session, if_neg (by omega)]⟩

end

/-- Settles O29: STOPPED up to the first write, then SINGLE_SHOT_PENDING until the second write or the read has failed
or the response has been checked, then STOPPED. -/
theorem singleShotPending : Obligations.SingleShotPending := by
  intro s w v hs hw hv ht hq ok ended
  obtain ⟨_, lines⟩ := ruleSingleShot_eq s.params
  obtain ⟨_, h4, before⟩ := ShotAt.firstWrite hs hw hv ht hq ok
  obtain ⟨pending, _, h8⟩ := h4.secondWrite hv hq
  cases ok7 : (s.drawAt 7).ok with
  | false =>
    rw [ok7, if_neg (by decide)] at h8
    obtain ⟨_, _, after⟩ := h8.stopped_of_failure (hq 8 (by decide)) (by rw [lines]; rfl)
    have endedAt : ended = 8 := by simp [ended, ok7]
    exact endedAt ▸ singleShotPending_of_phases before pending after
  | true =>
    rw [ok7, if_pos rfl] at h8
    obtain ⟨reading, _, _, after⟩ := h8.readAndStop hq
    have endedAt : ended = if (s.drawAt 9).ok then 11 else 10 := by simp [ended, ok7]
    exact endedAt ▸ singleShotPending_of_phases before (pending.join reading) after

end Sys2Proof.Machine
end

section
/-! The bus accesses of a well-formed operation (20_memory.md R51, R55, R61; 43_session.md R131; 70_reset_and_hazards.md
R194). -/

namespace Sys2Proof.Machine

/-- A well-formed operation sends only payloads that fit: START_PERIODIC's by its length field N (30_encoding.md R81),
a setter's is one Word, every other command has none. -/
theorem payloadsFit_of_wf {i : Instr} (h : i.wf = true) : payloadsFit i := by
  cases i with
  | startPeriodic payload =>
    have fits : payload.length ≤ 255 := by simpa [Instr.wf, spanFits] using h
    simpa [payloadsFit, commandsSent, firstCommand] using fits
  | _ => simp [payloadsFit, commandsSent, firstCommand]

/-- Settles O51: read off how every operation ends, whose accesses are legal where its payloads fit. -/
theorem busAccessesLegal : Obligations.BusAccessesLegal := by
  intro i s t hw h
  obtain ⟨new, ended⟩ := exec_ended h
  exact ⟨new, ended.busLog, ended.legal (payloadsFit_of_wf hw)⟩

end Sys2Proof.Machine
end

section
/-! Requests and operations: the decoder and the encoder are inverse to each other on well-formed operations
(30_encoding.md R71 to R83), and a request that does not decode is refused at its ACCEPT (R73, R175). -/

namespace Sys2Proof

open Machine

/-! ### The opcode map -/

/-- Decoding the opcode Byte of a row of the map gives the row (R72). -/
@[simp] theorem opcodeOf_byte (o : Opcode) : opcodeOf o.byte = some o := by
  cases o with
  | frameEncode d | frameDecode d => cases d <;> rfl
  | measDecode r => cases r <;> rfl
  | _ => rfl

/-- No two Bytes name the same row: the 256 Bytes are run through. -/
theorem byte_of_opcodeOf : ∀ op : Byte, ∀ o ∈ opcodeOf op, o.byte = op := by decide

theorem opcodeOf_eq_some_iff (op : Byte) (o : Opcode) : opcodeOf op = some o ↔ o.byte = op :=
  ⟨byte_of_opcodeOf op o, fun h => h ▸ opcodeOf_byte o⟩

/-! ### Length fields, words and the CRC Byte at the end of a span -/

/-- A length Byte counts a span exactly if the span fits and the Byte is its N (R75). -/
theorem length_eq_toNat_iff (data : List Byte) (n : Byte) :
    data.length = n.toNat ↔ spanFits data = true ∧ lengthByte data = n := by
  have hn := n.isLt
  simp only [spanFits, lengthByte, decide_eq_true_eq, ← BitVec.toNat_inj, BitVec.toNat_ofNat]
  omega

theorem lengthByte_toNat {data : List Byte} (h : spanFits data = true) : (lengthByte data).toNat = data.length :=
  ((length_eq_toNat_iff data _).mpr ⟨h, rfl⟩).symm

@[simp] theorem pairWords_wordBytes (ws : List Word) : pairWords (wordBytes ws) = ws := by
  induction ws with
  | nil => rfl
  | cons w ws ih => simp [pairWords, ih]

/-- An even number of Bytes is the Bytes of its words, half as many (R79). -/
theorem wordBytes_pairWords {bytes : List Byte} {k : Nat} (h : bytes.length = 2 * k) :
    wordBytes (pairWords bytes) = bytes ∧ (pairWords bytes).length = k := by
  induction bytes using pairWords.induct generalizing k with
  | case1 a b rest ih =>
    obtain ⟨hb, hl⟩ := ih (k := k - 1) (by simp at h; omega)
    refine ⟨by simp [pairWords, hb], ?_⟩
    simp only [pairWords, List.length_cons, hl] at h ⊢
    omega
  | case2 bytes short =>
    match bytes, short with
    | [], _ => exact ⟨rfl, by simp at h; simp [pairWords, h]⟩
    | [_], _ => simp at h; omega
    | a :: b :: rest, short => exact absurd rfl (short a b rest)

/-! ### Operands

One equation per format, for a request long enough to hold its length field. -/

theorem operandsOf_crcCompute (n : Byte) (data : List Byte) : operandsOf .crcCompute (n :: data) =
    if data.length = n.toNat then some (.crcCompute data) else none := rfl

theorem operandsOf_crcVerify (n : Byte) (rest : List Byte) : operandsOf .crcVerify (n :: rest) =
    if rest.length = n.toNat + 1 then rest[n.toNat]?.map fun c => .crcVerify (rest.take n.toNat) c else none := rfl

theorem operandsOf_frameEncode (d : Dialect) (h l n : Byte) (payload : List Byte) :
    operandsOf (.frameEncode d) (h :: l :: n :: payload) =
      if payload.length = n.toNat then some (.frameEncode d (word h l) payload) else none := rfl

theorem operandsOf_frameDecode (d : Dialect) (k : Byte) (raw : List Byte) : operandsOf (.frameDecode d) (k :: raw) =
    if raw.length = 3 * k.toNat then some (.frameDecode d k raw) else none := rfl

theorem operandsOf_measDecode (r : DecodeRule) (bytes : List Byte) : operandsOf (.measDecode r) bytes =
    if bytes.length = 2 * r.wordCount then some (.measDecode r (pairWords bytes)) else none := by
  cases bytes <;> rfl

theorem operandsOf_startPeriodic (n : Byte) (payload : List Byte) : operandsOf .startPeriodic (n :: payload) =
    if payload.length = n.toNat then some (.startPeriodic payload) else none := rfl

theorem operandsOf_setAltitude (h l : Byte) : operandsOf .setAltitude [h, l] = some (.setAltitude (word h l)) := rfl

theorem operandsOf_setTempOffset (h l : Byte) :
    operandsOf .setTempOffset [h, l] = some (.setTempOffset (word h l)) := rfl

theorem operandsOf_setAutoCal (h l : Byte) : operandsOf .setAutoCal [h, l] = some (.setAutoCal (word h l)) := rfl

/-- The Bytes after OP of a well-formed operation give it back (R75 to R82). -/
theorem operandsOf_operandBytes {i : Instr} (h : i.wf = true) : operandsOf i.opcode i.operandBytes = some i := by
  cases i with
  | crcCompute data | startPeriodic data =>
    have fits : (lengthByte data).toNat = data.length := lengthByte_toNat h
    simp [Instr.opcode, Instr.operandBytes, operandsOf_crcCompute, operandsOf_startPeriodic, fits]
  | crcVerify data c =>
    have fits : (lengthByte data).toNat = data.length := lengthByte_toNat h
    simp [Instr.opcode, Instr.operandBytes, operandsOf_crcVerify, fits]
  | frameEncode d cmd payload =>
    have fits : (lengthByte payload).toNat = payload.length := lengthByte_toNat h
    simp [Instr.opcode, Instr.operandBytes, be16, operandsOf_frameEncode, fits]
  | frameDecode d k raw =>
    have groups : raw.length = 3 * k.toNat := by simpa [Instr.wf, groupsMatch] using h
    exact (operandsOf_frameDecode _ _ _).trans (if_pos groups)
  | measDecode r ws =>
    have words : ws.length = r.wordCount := by simpa [Instr.wf, wordsMatch] using h
    simp [Instr.opcode, Instr.operandBytes, operandsOf_measDecode, words]
  | setAltitude w | setTempOffset w | setAutoCal w =>
    simp [Instr.opcode, Instr.operandBytes, be16, operandsOf_setAltitude, operandsOf_setTempOffset,
      operandsOf_setAutoCal]
  | _ => rfl

/-- Bytes after OP that give an operation are that operation's, and it is well-formed and of the row asked for
(R75 to R83). -/
theorem operandBytes_of_operandsOf {o : Opcode} {rest : List Byte} {i : Instr} (h : operandsOf o rest = some i) :
    i.opcode = o ∧ i.operandBytes = rest ∧ i.wf = true := by
  cases o with
  | crcCompute | startPeriodic =>
    cases rest with
    | nil => cases h
    | cons n data =>
      simp only [operandsOf_crcCompute, operandsOf_startPeriodic, Option.ite_none_right_eq_some] at h
      obtain ⟨hl, ⟨⟩⟩ := h
      obtain ⟨fits, rfl⟩ := (length_eq_toNat_iff data n).mp hl
      exact ⟨rfl, rfl, fits⟩
  | crcVerify =>
    cases rest with
    | nil => cases h
    | cons n rest =>
      rw [operandsOf_crcVerify, Option.ite_none_right_eq_some, Option.map_eq_some_iff] at h
      obtain ⟨hl, c, hc, rfl⟩ := h
      obtain ⟨hn, rfl⟩ := List.getElem?_eq_some_iff.mp hc
      obtain ⟨fits, hb⟩ := (length_eq_toNat_iff (rest.take n.toNat) n).mp (by simp [hl])
      refine ⟨rfl, ?_, fits⟩
      rw [Instr.operandBytes, hb, List.take_append_getElem, List.take_of_length_le hl.le]
  | frameEncode d =>
    match rest, h with
    | hb :: lb :: n :: payload, h =>
      rw [operandsOf_frameEncode, Option.ite_none_right_eq_some] at h
      obtain ⟨hl, ⟨⟩⟩ := h
      obtain ⟨fits, rfl⟩ := (length_eq_toNat_iff payload n).mp hl
      exact ⟨rfl, by simp [Instr.operandBytes, be16], fits⟩
  | frameDecode d =>
    cases rest with
    | nil => cases h
    | cons k raw =>
      rw [operandsOf_frameDecode, Option.ite_none_right_eq_some] at h
      obtain ⟨groups, ⟨⟩⟩ := h
      exact ⟨rfl, rfl, by simpa [Instr.wf, groupsMatch] using groups⟩
  | measDecode r =>
    rw [operandsOf_measDecode, Option.ite_none_right_eq_some] at h
    obtain ⟨hl, ⟨⟩⟩ := h
    obtain ⟨hb, words⟩ := wordBytes_pairWords hl
    exact ⟨rfl, hb, by simpa [Instr.wf, wordsMatch] using words⟩
  | setAltitude | setTempOffset | setAutoCal =>
    match rest, h with
    | [hb, lb], h =>
      cases h
      exact ⟨rfl, by simp [Instr.operandBytes, be16], rfl⟩
  | _ =>
    match rest, h with
    | [], h =>
      cases h
      exact ⟨rfl, rfl, rfl⟩

/-- The formats, both ways at once (R75 to R83). -/
theorem operandsOf_eq_some_iff (o : Opcode) (rest : List Byte) (i : Instr) :
    operandsOf o rest = some i ↔ i.opcode = o ∧ i.operandBytes = rest ∧ i.wf = true := by
  refine ⟨operandBytes_of_operandsOf, ?_⟩
  rintro ⟨rfl, rfl, h⟩
  exact operandsOf_operandBytes h

/-! ### Requests -/

/-- A request with an opcode outside the map is illegal, whatever its length (R73, R83). -/
theorem decodeRequest_of_illegal {op : Byte} (h : opcodeOf op = none) (rest : List Byte) :
    decodeRequest op rest = .error .illegalOpcode := by
  simp [decodeRequest, h]

/-- With a legal opcode, the format alone decides (R83). -/
theorem decodeRequest_of_legal {op : Byte} {o : Opcode} (h : opcodeOf op = some o) (rest : List Byte) :
    (∃ i, operandsOf o rest = some i ∧ decodeRequest op rest = .ok i) ∨
      (operandsOf o rest = none ∧ decodeRequest op rest = .error .malformedLength) := by
  cases ho : operandsOf o rest with
  | none => exact .inr ⟨rfl, by simp [decodeRequest, h, ho]⟩
  | some i => exact .inl ⟨i, rfl, by simp [decodeRequest, h, ho]⟩

/-- A request decodes exactly if a row of the map and its format give an operation. -/
theorem decodeRequest_eq_ok_iff (op : Byte) (rest : List Byte) (i : Instr) :
    decodeRequest op rest = .ok i ↔ ∃ o, opcodeOf op = some o ∧ operandsOf o rest = some i := by
  cases h : opcodeOf op with
  | none => simp [decodeRequest_of_illegal h]
  | some o =>
    rcases decodeRequest_of_legal h rest with ⟨j, ho, hd⟩ | ⟨ho, hd⟩ <;> simp [ho, hd]

/-- The Byte strings that decode to an operation: the one it encodes to, if it is well-formed. -/
theorem decode_eq_ok_iff (bytes : List Byte) (i : Instr) :
    decode bytes = .ok i ↔ encode i = bytes ∧ i.wf = true := by
  cases bytes with
  | nil => simp [decode, encode]
  | cons op rest =>
    simp only [decode, encode, decodeRequest_eq_ok_iff, opcodeOf_eq_some_iff, operandsOf_eq_some_iff, List.cons.injEq]
    constructor
    · rintro ⟨o, hop, rfl, hrest, h⟩
      exact ⟨⟨hop, hrest⟩, h⟩
    · rintro ⟨⟨hop, hrest⟩, h⟩
      exact ⟨i.opcode, hop, rfl, hrest, h⟩

/-- Settles O1: the request of a well-formed operation is the Byte string that decodes to it. -/
theorem decodeOfEncode : Obligations.DecodeOfEncode :=
  fun i h => (decode_eq_ok_iff (encode i) i).mpr ⟨rfl, h⟩

/-- Settles O2: no other Byte string does, and no operation that is not well-formed is decoded. -/
theorem encodeOfDecode : Obligations.EncodeOfDecode :=
  fun bytes i => (decode_eq_ok_iff bytes i).mp

/-! ### Lengths -/

/-- A request's Bytes after OP give an operation exactly if the request has the length its format determines (R83). -/
theorem operandsOf_isSome_iff (o : Opcode) (op : Byte) (rest : List Byte) :
    (operandsOf o rest).isSome ↔ frameLength o (op :: rest) = some (rest.length + 1) := by
  cases o with
  | crcCompute | startPeriodic =>
    cases rest with
    | nil => exact ⟨nofun, nofun⟩
    | cons n data => simpa [frameLength, operandsOf_crcCompute, operandsOf_startPeriodic] using eq_comm
  | crcVerify =>
    cases rest with
    | nil => exact ⟨nofun, nofun⟩
    | cons n rest =>
      by_cases hl : rest.length = n.toNat + 1
      · simp [frameLength, operandsOf_crcVerify, hl]
      · simpa [frameLength, operandsOf_crcVerify, hl] using Ne.symm hl
  | frameEncode d =>
    match rest with
    | [] | [_] | [_, _] => exact ⟨nofun, nofun⟩
    | _ :: _ :: n :: payload => simpa [frameLength, operandsOf_frameEncode] using eq_comm
  | frameDecode d =>
    cases rest with
    | nil => exact ⟨nofun, nofun⟩
    | cons k raw => simpa [frameLength, operandsOf_frameDecode] using eq_comm
  | measDecode r => simpa [frameLength, operandsOf_measDecode] using eq_comm
  | setAltitude | setTempOffset | setAutoCal =>
    match rest with
    | [] | [_] | _ :: _ :: _ :: _ => exact ⟨nofun, by simp [frameLength]⟩
    | [_, _] => exact ⟨fun _ => rfl, fun _ => rfl⟩
  | _ =>
    cases rest with
    | nil => exact ⟨fun _ => rfl, fun _ => rfl⟩
    | cons a rest => exact ⟨nofun, by simp [frameLength]⟩

/-- Settles O5: the format gives an operation exactly at the length it determines. -/
theorem lengthDecidesRequests : Obligations.LengthDecidesRequests := by
  refine ⟨fun op rest o ho => ?_, fun op rest ho => decodeRequest_of_illegal ho rest⟩
  rw [ne_eq, ← operandsOf_isSome_iff]
  rcases decodeRequest_of_legal ho rest with ⟨i, hi, hd⟩ | ⟨hn, hd⟩
  · simp [hi, hd]
  · simp [hn, hd]

/-! ### Requests that are refused -/

/-- A request that does not decode ends at its ACCEPT with its error, and changes nothing else (R73, R175). -/
theorem step_refuses {s : State} {op : Byte} {rest : List Byte} {more : List Input} {e : BadRequest}
    (hp : s.phase = .idle) (hr : s.resp = []) (hi : s.inputs = .request op rest :: more)
    (hd : decodeRequest op rest = .error e) (hq : s.undisturbed 1) :
    ∃ t, step s = .next t ∧ { s with inputs := more }.refuses t (badRequestFailure e).frame := by
  have hstep : step s = .next (refuseRequest e s.dropInput) := by simp [step, hp, hr, hi, hd]
  have quiet : (s.drawAt 0).reset = false := hq 0 Nat.one_pos
  refine ⟨s.dropInput.tick.raise (badRequestFailure e), ?_, ⟨?_, ?_⟩, rfl, rfl, rfl⟩
  · simp [hstep, refuseRequest, quiet]
  · exact Nat.le_add_right _ _
  · simp [State.raise, State.respondWith, State.tick, State.dropInput, hi]

/-- The Bytes of the opcode map (R72). -/
def legalOpcodes : List Byte :=
  [0x01, 0x02, 0x03, 0x13, 0x04, 0x14, 0x05, 0x15, 0x20, 0x21, 0x22, 0x23, 0x24, 0x25, 0x26,
    0x40, 0x41, 0x42, 0x43, 0x44]

theorem byte_mem_legalOpcodes (o : Opcode) : o.byte ∈ legalOpcodes := by
  cases o with
  | frameEncode d | frameDecode d => cases d <;> decide
  | measDecode r => cases r <;> decide
  | _ => decide

/-- The illegal opcodes are the Bytes that no row of the map has (R73). -/
theorem opcodeOf_eq_none_iff (op : Byte) : opcodeOf op = none ↔ op ∉ legalOpcodes := by
  have named : ∀ b ∈ legalOpcodes, opcodeOf b ≠ none := by decide
  refine ⟨fun h hm => named op hm h, fun hm => Option.eq_none_iff_forall_ne_some.mpr fun o ho => hm ?_⟩
  exact byte_of_opcodeOf op o ho ▸ byte_mem_legalOpcodes o

/-- Settles O4: the map, and a request of an illegal opcode is one that does not decode. -/
theorem illegalOpcodesRefused : Obligations.IllegalOpcodesRefused :=
  ⟨opcodeOf_eq_none_iff, fun _ _ rest _ hp hr hi ho hq => step_refuses hp hr hi (decodeRequest_of_illegal ho rest) hq⟩

/-! ### The vectors and the pseudo-instructions -/

/-- Settles O3: each operation is well-formed and encodes to the Bytes that the vector prints. -/
theorem sampleRequestsDecode : Obligations.SampleRequestsDecode := by
  unfold Obligations.SampleRequestsDecode
  simp only [decode_eq_ok_iff]
  decide

/-- DIALECT, derived from VARIANT (10_state.md R20). -/
theorem dialectOf_eq (v : Variant) : dialectOf v = if v = .floatContinuous then .a else .b := by cases v <;> rfl

/-- The decode rule that VARIANT fixes (42_measurement_decoder.md R120). -/
theorem ruleOf_eq (v : Variant) : ruleOf v = if v = .floatContinuous then .float else .fixed := by cases v <;> rfl

/-- Settles O59: `init` is STOP_PERIODIC, and the others take VARIANT's dialect or decode rule (R94). -/
theorem pseudoExpansions : Obligations.PseudoExpansions := by
  intro v cmd p raw k ws
  rw [← dialectOf_eq, ← ruleOf_eq]
  exact ⟨rfl, rfl, rfl, rfl⟩

end Sys2Proof
end

section
/-! CRC-8 (40_crc.md R100 to R104). One bit step is linear over exclusive-or and one to one; a Byte's eight steps and
the register after a span inherit both, which gives R102's affinity and its detection of single-bit errors. -/

namespace Sys2Proof.Machine

/-! ### One bit step -/

/-- A bit step adds exclusive-or differences: a shift does, and the top bits decide each 0x31 by exclusive-or too. -/
theorem crcBit_xor (a b : Byte) : crcBit (a ^^^ b) = crcBit a ^^^ crcBit b := by
  have shift : (a ^^^ b) <<< 1 = a <<< 1 ^^^ b <<< 1 := BitVec.shiftLeft_xor_distrib ..
  simp only [crcBit, BitVec.msb_xor, shift]
  cases a.msb <;> cases b.msb
  case false.false => rfl
  case false.true => exact BitVec.xor_assoc ..
  case true.false =>
    simp only [Bool.true_bne, Bool.not_false, if_true, Bool.false_eq_true, if_false]
    ac_rfl
  case true.true =>
    calc a <<< 1 ^^^ b <<< 1
      _ = a <<< 1 ^^^ b <<< 1 ^^^ (0x31 ^^^ 0x31) := by simp
      _ = (a <<< 1 ^^^ 0x31) ^^^ (b <<< 1 ^^^ 0x31) := by ac_rfl

@[simp] theorem crcBit_zero : crcBit 0 = 0 := rfl

/-- The bit that a step shifts out is the lowest bit of its result, since 0x31 is odd. -/
theorem crcBit_getLsbD_zero (c : Byte) : (crcBit c).getLsbD 0 = c.msb := by
  cases h : c.msb <;> simp [crcBit, h]

/-- A step loses nothing: the top bit stands in the lowest, and the others are shifted. -/
theorem eq_zero_of_crcBit_eq_zero {c : Byte} (h : crcBit c = 0) : c = 0 := by
  have top : c.msb = false := by rw [← crcBit_getLsbD_zero, h]; rfl
  have shifted : c <<< 1 = 0 := by simpa [crcBit, top] using h
  have small := BitVec.msb_eq_false_iff_two_mul_lt.mp top
  bv_omega

theorem crcBit_injective : Function.Injective crcBit := by
  intro a b h
  have difference : crcBit (a ^^^ b) = 0 := by rw [crcBit_xor, h]; exact BitVec.xor_self
  exact BitVec.xor_eq_zero_iff.mp (eq_zero_of_crcBit_eq_zero difference)

/-- A bit step on numbers (R100): the doubled register, with 0x31 where bit 7 was set, reduced to eight bits. -/
theorem crcBit_toNat (c : Byte) : (crcBit c).toNat =
    if 128 ≤ c.toNat then Nat.xor (2 * c.toNat) 0x31 % 256 else 2 * c.toNat % 256 := by
  have doubled : (c <<< 1).toNat = 2 * c.toNat % 256 := by
    rw [BitVec.toNat_shiftLeft, Nat.shiftLeft_eq, Nat.mul_comm]
  have top : c.msb = decide (128 ≤ c.toNat) := BitVec.msb_eq_decide c
  by_cases h : 128 ≤ c.toNat
  · have reduced : Nat.xor (2 * c.toNat) 0x31 % 2 ^ 8 = 2 * c.toNat % 2 ^ 8 ^^^ 0x31 % 2 ^ 8 := Nat.xor_mod_two_pow
    simp only [crcBit, top, h, decide_true, if_true, BitVec.toNat_xor, doubled]
    exact reduced.symm
  · simp [crcBit, top, h, doubled]

/-! ### One Byte -/

/-- A Byte is brought in by exclusive-or, then eight bit steps. -/
theorem crcByte_eq_iterate (c b : Byte) : crcByte c b = crcBit^[8] (c ^^^ b) := rfl

/-- A Byte's steps add differences in the register and in the Byte. -/
theorem crcByte_xor (c c' b b' : Byte) : crcByte (c ^^^ c') (b ^^^ b') = crcByte c b ^^^ crcByte c' b' := by
  have regroup : c ^^^ c' ^^^ (b ^^^ b') = (c ^^^ b) ^^^ (c' ^^^ b') := by ac_rfl
  simp only [crcByte, regroup, crcBit_xor]

theorem crcByte_inj {c c' b b' : Byte} : crcByte c b = crcByte c' b' ↔ c ^^^ b = c' ^^^ b' :=
  (crcBit_injective.iterate 8).eq_iff

/-- A Byte equal to the register clears it. -/
@[simp] theorem crcByte_self (c : Byte) : crcByte c c = 0 := by
  rw [crcByte_eq_iterate, BitVec.xor_self]
  exact Function.iterate_fixed crcBit_zero 8

/-! ### A span -/

/-- A span's register adds differences in its start and in its Bytes. -/
theorem crcFrom_xor (c c' : Byte) {d d' : List Byte} (h : d.length = d'.length) :
    crcFrom c d ^^^ crcFrom c' d' = crcFrom (c ^^^ c') (List.zipWith (· ^^^ ·) d d') := by
  induction d generalizing c c' d' with
  | nil =>
    obtain rfl := List.length_eq_zero_iff.mp h.symm
    rfl
  | cons b d ih =>
    cases d' with
    | nil => cases h
    | cons b' d' =>
      rw [List.zipWith_cons_cons, crcFrom_cons, crcFrom_cons, crcFrom_cons, crcByte_xor]
      exact ih _ _ (Nat.succ.inj h)

/-- The same Bytes take different registers to different registers. -/
theorem crcFrom_inj {c c' : Byte} (d : List Byte) : crcFrom c d = crcFrom c' d ↔ c = c' := by
  induction d generalizing c c' with
  | nil => rfl
  | cons b d ih => rw [crcFrom_cons, crcFrom_cons, ih, crcByte_inj, BitVec.xor_left_inj]

theorem crc8_append_cons (before after : List Byte) (b : Byte) :
    crc8 (before ++ b :: after) = crcFrom (crcByte (crc8 before) b) after := crcFrom_append _ _ _

/-- An error confined to one Byte changes the CRC. -/
theorem crc8_append_cons_inj (before after : List Byte) {b b' : Byte} :
    crc8 (before ++ b :: after) = crc8 (before ++ b' :: after) ↔ b = b' := by
  rw [crc8_append_cons, crc8_append_cons, crcFrom_inj, crcByte_inj, BitVec.xor_right_inj]

/-- Settles O9: exclusive-or with a single bit changes the Byte, and an error in one Byte changes the CRC. -/
theorem crcDetectsSingleBit : Obligations.CrcDetectsSingleBit := by
  intro before after b k hk same
  have unchanged : b ^^^ BitVec.twoPow 8 k = b := (crc8_append_cons_inj before after).mp same
  have noBit : BitVec.twoPow 8 k = 0 := by simpa using unchanged
  have bit : (BitVec.twoPow 8 k).getLsbD k = true := by simp [hk]
  simp [noBit] at bit

/-- Settles O10: the initial values 0xFF cancel. -/
theorem crcAffinity : Obligations.CrcAffinity :=
  fun _ _ h => crcFrom_xor 0xFF 0xFF h

/-- Settles O7: appending a Byte is one more Byte's steps, and each step is the one on numbers. -/
theorem crcRecurrence : Obligations.CrcRecurrence := by
  unfold Obligations.CrcRecurrence
  intro bit
  have step (c : Byte) : (crcBit c).toNat = bit c.toNat := crcBit_toNat c
  refine ⟨rfl, fun d b => ?_⟩
  rw [crc8_append_cons, crcFrom_nil]
  simp only [crcByte, step, BitVec.toNat_xor]
  rfl

/-- Settles O8: the CRC, brought in as a Byte, clears the register. -/
theorem crcResidue : Obligations.CrcResidue := fun d => by
  rw [crc8_append_cons, crcByte_self, crcFrom_nil]

/-! ### The pure operations (30_encoding.md R86) -/

/-- A line that goes on: no RESET, and its effect neither ends the operation nor fails. -/
theorem runLines_cons_of_ok {l : Line} {rest : List Line} {u v : State} (hq : (u.drawAt 0).reset = false)
    (hv : perform l.act (u.drawAt 0) u.tick = v) (hp : v.phase = .exec) (hf : v.failed = none) :
    runLines (l :: rest) u = runLines rest v := by
  rw [runLines_cons, runAct_of_quiet hq, hv, afterLine_of_ok _ _ hp hf]

/-- A response ends the operation. -/
theorem runLines_cons_respond {f : State → List Byte} {rest : List Line} {u : State}
    (hq : (u.drawAt 0).reset = false) : runLines (line (.respond f) :: rest) u = u.tick.respond (f u.tick) := by
  rw [runLines_cons, line, runAct_of_quiet hq]
  exact afterLine_of_idle _ _ rfl

/-- The state in which a pure operation begun at s computes its result. -/
def State.atCompute (s : State) (i : Instr) : State := (s.begin i).tick.advance.tick

/-- The state in which a pure operation begun at s responds, its result computed by f. -/
def State.computed (s : State) (i : Instr) (f : State → List Byte) : State :=
  { s.atCompute i with data := f (s.atCompute i) }.advance

@[simp] theorem State.drawAt_computed (s : State) (i : Instr) (f : State → List Byte) (k : Nat) :
    (s.computed i f).drawAt k = s.drawAt (k + 2) := by
  have same : (s.computed i f).drawAt k = (s.atCompute i).drawAt k := rfl
  simp [same, State.atCompute]

@[simp] theorem State.computed_now (s : State) (i : Instr) (f : State → List Byte) :
    (s.computed i f).now = s.clock 2 := by
  have same : (s.computed i f).now = (s.atCompute i).now := rfl
  simp [same, State.atCompute, State.clock_succ]

/-- The response to a result, at the third boundary from s, leaves all but the result's frame as it was. -/
theorem State.respond_computed (s : State) (i : Instr) (f : State → List Byte) :
    (s.computed i f).tick.respond (computedData (s.computed i f).tick) =
      s.answered i 3 (s.clock 3) (statusOk :: f (s.atCompute i)) := by
  have time : (s.computed i f).tick.now = s.clock 3 := by simp [State.clock_succ]
  have left : (s.computed i f).tick.draws = s.draws.drop 3 := by
    simp [State.computed, State.atCompute, State.begin]
  simp only [State.answered, ← time, ← left]
  rfl

/-- A pure operation that no RESET cuts answers OK with its result after three micro-steps, and changes nothing
else. -/
theorem exec_of_pureRule {i : Instr} {f : State → List Byte} {s : State} (hr : ruleOfInstr i s.params = pureRule f)
    (hq : s.undisturbed 3) :
    exec i s = .next (s.answered i 3 (s.clock 3) (statusOk :: f (s.atCompute i))) := by
  have quietAccept : ((s.begin i).drawAt 0).reset = false := hq 0 (by decide)
  have quietCompute : ((s.begin i).tick.advance.drawAt 0).reset = false := by simpa using hq 1 (by decide)
  have quietRespond : ((s.computed i f).drawAt 0).reset = false := by simpa using hq 2 (by decide)
  rw [exec_eq_runLines, hr, pureRule, runLines_cons_of_ok (v := (s.begin i).tick.advance) quietAccept rfl rfl rfl,
    runLines_cons_of_ok (v := s.computed i f) quietCompute rfl rfl rfl, runLines_cons_respond quietRespond,
    State.respond_computed]

/-- Settles O16: CRC_COMPUTE is a pure operation, with its span's CRC as its result. -/
theorem crcComputeCompletes : Obligations.CrcComputeCompletes :=
  fun data _ hq => exec_of_pureRule (i := .crcCompute data) (f := fun _ => crcComputeData data) rfl hq

/-- Settles O17: CRC_VERIFY is a pure operation, with 0x01 for a match and 0x00 for a mismatch as its result. -/
theorem crcVerifyCompletes : Obligations.CrcVerifyCompletes := by
  intro data c s hq
  have result : crcVerifyData data c = [if crc8 data = c then 0x01 else 0x00] := by
    simp only [crcVerifyData, flagByte, verify_eq_true]
  rw [← result]
  exact exec_of_pureRule (i := .crcVerify data c) (f := fun _ => crcVerifyData data c) rfl hq

end Sys2Proof.Machine
end

section
/-! The frame codec (41_frame_codec.md R110 to R113). FRAME_DECODE shares its micro-steps up to COMPUTE with the pure
operations, but a bad group takes it to `raise` there; a RESET in any of its three micro-steps leaves no response. -/

namespace Sys2Proof.Machine

/-! ### Outbound frames -/

/-- The trailing CRC's condition: Dialect A and a payload that is not empty (R110). -/
theorem frameTrailer_eq (d : Dialect) (p : List Byte) :
    frameTrailer d p = if d = .a ∧ 0 < p.length then [crc8 p] else [] := by
  cases d with
  | b => rfl
  | a =>
    cases p with
    | nil => rfl
    | cons b p => simp [frameTrailer]

/-- Settles O11: the command word high Byte first, the payload as it is, and the trailer. -/
theorem encodeFrameLayout : Obligations.EncodeFrameLayout := by
  intro d cmd p
  rw [encodeFrame, frameTrailer_eq]
  refine ⟨rfl, ?_⟩
  rw [List.length_append, List.length_append, be16_length]
  split <;> rfl

/-- Settles O18: FRAME_ENCODE is a pure operation, with the frame's length field and the frame as its result. -/
theorem frameEncodeCompletes : Obligations.FrameEncodeCompletes :=
  fun d cmd payload _ hq =>
    exec_of_pureRule (i := .frameEncode d cmd payload) (f := fun _ => frameEncodeData d cmd payload) rfl hq

/-! ### Inbound groups -/

/-- A word as it stands on the wire, with its own CRC (R112). -/
def wireGroup (w : Word) : List Byte := [hi w, lo w, crc8 [hi w, lo w]]

/-- A group that passes its check is the wire form of its word. -/
theorem wireGroup_word {a b c : Byte} (h : verify [a, b] c = true) : wireGroup (word a b) = [a, b, c] := by
  simp [wireGroup, (verify_eq_true _ _).mp h]

/-- Every word passes its own check. -/
theorem decodeWords_wireGroup_append (w : Word) (rest : List Byte) (k : Nat) :
    decodeWords (wireGroup w ++ rest) (k + 1) = (decodeWords rest k).map (w :: ·) := by
  have checked : verify [hi w, lo w] (crc8 [hi w, lo w]) = true := (verify_eq_true _ _).mpr rfl
  simp [wireGroup, decodeWords, checked]

/-- Words on the wire decode to themselves. -/
theorem decodeWords_flatMap_wireGroup (ws : List Word) :
    decodeWords (ws.flatMap wireGroup) ws.length = some ws := by
  induction ws with
  | nil => rfl
  | cons w ws ih => rw [List.flatMap_cons, List.length_cons, decodeWords_wireGroup_append, ih, Option.map_some]

/-- What decodes is the decoded words on the wire: no group of it is bad. -/
theorem eq_flatMap_of_decodeWords {raw : List Byte} {k : Nat} {ws : List Word} (h : decodeWords raw k = some ws) :
    raw = ws.flatMap wireGroup := by
  induction raw, k using decodeWords.induct generalizing ws with
  | case1 =>
    obtain rfl : [] = ws := by simpa [decodeWords] using h
    rfl
  | case2 a b c rest k good ih =>
    simp only [decodeWords, good, if_true] at h
    obtain ⟨vs, hvs, rfl⟩ := Option.map_eq_some_iff.mp h
    rw [List.flatMap_cons, wireGroup_word good, ← ih hvs]
    rfl
  | case3 a b c rest k bad => simp [decodeWords, bad] at h
  | case4 => simp_all [decodeWords]

/-! ### FRAME_DECODE -/

/-- A RESET in a line's micro-step ends the operation without a response (R192). -/
theorem runLines_resp_of_reset (l : Line) (rest : List Line) {u : State} (h : (u.drawAt 0).reset = true) :
    (runLines (l :: rest) u).resp = [] := by
  rw [runLines_cons, runAct_of_reset h, afterLine_of_idle _ _ rfl, State.onReset_resp]

/-- So does one in a micro-step after an error. -/
theorem runActs_resp_of_reset (a : Act) (rest : List Act) {u : State} (h : (u.drawAt 0).reset = true) :
    (runActs (a :: rest) u).resp = [] := by
  rw [runActs_cons, runAct_of_reset h, afterAct_of_idle _ rfl, State.onReset_resp]

/-- The `raise` after an error ends the operation with that error's frame. -/
theorem runActs_raise {u : State} {f : PendingFailure} (hq : (u.drawAt 0).reset = false) (hf : u.failed = some f) :
    runActs [.raise] u = u.tick.raise f.failure := by
  have raised : runAct .raise u = u.tick.raise f.failure := by simp [runAct_of_quiet hq, perform, hf]
  rw [runActs_cons, raised]
  exact afterAct_of_idle _ rfl

/-- The state that FRAME_DECODE's COMPUTE leaves where every group is good. -/
def State.decoded (s : State) (i : Instr) (ws : List Word) : State := { s.atCompute i with words := ws }.advance

/-- The boundary after COMPUTE uses the third draw. -/
@[simp] theorem State.drawAt_atCompute (s : State) (i : Instr) (k : Nat) :
    (s.atCompute i).drawAt k = s.drawAt (k + 2) := by
  simp [State.atCompute]

@[simp] theorem State.drawAt_decoded (s : State) (i : Instr) (ws : List Word) (k : Nat) :
    (s.decoded i ws).drawAt k = s.drawAt (k + 2) := s.drawAt_atCompute i k

/-- An ACCEPT without checks, in a quiet micro-step, leads to COMPUTE. -/
theorem runLines_acceptPure (rest : List Line) {s : State} (i : Instr) (accept : (s.drawAt 0).reset = false) :
    runLines (line .acceptPure :: rest) (s.begin i) = runLines rest (s.begin i).tick.advance :=
  runLines_cons_of_ok (u := s.begin i) accept rfl rfl rfl

/-- What FRAME_DECODE's COMPUTE leaves to run, by the outcome of its check (R113). -/
theorem runLines_ruleFrameDecode_cases (d : Dialect) (k : Byte) (raw : List Byte) {s : State} (i : Instr)
    (accept : (s.drawAt 0).reset = false) (compute : (s.drawAt 1).reset = false) :
    (∃ ws, decodeWords raw k.toNat = some ws ∧ runLines (ruleFrameDecode d k raw s.params) (s.begin i) =
        runLines [line (.respond (frameDecodeData k))] (s.decoded i ws)) ∨
      (decodeWords raw k.toNat = none ∧ runLines (ruleFrameDecode d k raw s.params) (s.begin i) =
        runActs [.raise] ((s.atCompute i).failWith (checksumFailure 0))) := by
  have quiet : ((s.begin i).tick.advance.drawAt 0).reset = false := by simpa using compute
  have reached : runLines (ruleFrameDecode d k raw s.params) (s.begin i) =
      afterLine [.raise] (runLines [line (.respond (frameDecodeData k))])
        (decodeInto raw k.toNat 0 (s.atCompute i)) := by
    rw [ruleFrameDecode, runLines_acceptPure _ _ accept, runLines_cons, runAct_of_quiet quiet]
    rfl
  rw [reached]
  rcases decodeInto_cases raw k.toNat 0 (s.atCompute i) with ⟨ws, hw, e⟩ | ⟨hw, e⟩ <;> rw [e]
  · exact .inl ⟨ws, hw, afterLine_of_ok _ _ rfl rfl⟩
  · exact .inr ⟨hw, afterLine_of_failed _ _ rfl rfl⟩

/-- A response at the third boundary from s leaves all but its frame as it was, whatever COMPUTE kept. -/
theorem State.respondWith_after_compute (s : State) (i : Instr) (ws : List Word) (f : Option PendingFailure) (n : Nat)
    (frame : List Byte) :
    ({ s.atCompute i with words := ws, failed := f, stepIndex := n } : State).tick.respondWith frame =
      s.answered i 3 (s.clock 3) frame := by
  have time : (s.atCompute i).tick.now = s.clock 3 := by simp [State.atCompute, State.clock_succ]
  have left : (s.atCompute i).tick.draws = s.draws.drop 3 := by simp [State.atCompute]
  simp only [State.answered, ← time, ← left]
  rfl

/-- Settles O19: good groups are answered with their words, a bad one raises CHECKSUM_ERROR of transaction 0. -/
theorem frameDecodeCompletes : Obligations.FrameDecodeCompletes := by
  intro d k raw s hq
  have quiet : (s.drawAt 2).reset = false := hq 2 (by decide)
  rw [exec_eq_runLines]
  rcases runLines_ruleFrameDecode_cases d k raw (.frameDecode d k raw) (hq 0 (by decide)) (hq 1 (by decide)) with
    ⟨ws, hw, e⟩ | ⟨hw, e⟩
  · rw [ruleOfInstr, e, runLines_cons_respond (by simpa using quiet), hw]
    exact congrArg _ (s.respondWith_after_compute _ ws _ _ _)
  · rw [ruleOfInstr, e, runActs_raise (by simpa using quiet) rfl, hw]
    exact congrArg _ (s.respondWith_after_compute _ _ _ _ _)

/-- A RESET in any micro-step of FRAME_DECODE leaves no response (R192). -/
theorem frameDecode_resp_of_disturbed (d : Dialect) (k : Byte) (raw : List Byte) {s : State}
    (h : ¬ s.undisturbed 3) : ∃ t, exec (.frameDecode d k raw) s = .next t ∧ t.resp = [] := by
  refine ⟨_, exec_eq_runLines _ s, ?_⟩
  rw [ruleOfInstr]
  cases accept : (s.drawAt 0).reset with
  | true => exact runLines_resp_of_reset _ _ accept
  | false =>
    cases compute : (s.drawAt 1).reset with
    | true =>
      have reset : ((s.begin (.frameDecode d k raw)).tick.advance.drawAt 0).reset = true := by simpa using compute
      rw [ruleFrameDecode, runLines_acceptPure _ _ accept]
      exact runLines_resp_of_reset _ _ reset
    | false =>
      have respond : (s.drawAt 2).reset = true := by
        by_contra quiet
        refine h fun j hj => ?_
        match j, hj with
        | 0, _ => exact accept
        | 1, _ => exact compute
        | 2, _ => exact Bool.eq_false_of_not_eq_true quiet
      rcases runLines_ruleFrameDecode_cases d k raw (.frameDecode d k raw) accept compute with
        ⟨ws, -, e⟩ | ⟨-, e⟩ <;> rw [e]
      · exact runLines_resp_of_reset _ _ (by simpa using respond)
      · exact runActs_resp_of_reset _ _ (by simpa using respond)

/-- Settles O12: decoding inverts the wire form, and the response, if RESET leaves one, names no dialect. -/
theorem decodeWordsExact : Obligations.DecodeWordsExact := by
  refine ⟨fun raw k ws => ⟨fun h => ⟨decodeWords_length h, eq_flatMap_of_decodeWords h⟩, ?_⟩, fun k raw s => ?_⟩
  · rintro ⟨rfl, rfl⟩
    exact decodeWords_flatMap_wireGroup ws
  · by_cases hq : s.undisturbed 3
    · exact ⟨_, _, frameDecodeCompletes .a k raw s hq, frameDecodeCompletes .b k raw s hq, rfl⟩
    · obtain ⟨t, ht, noneA⟩ := frameDecode_resp_of_disturbed .a k raw hq
      obtain ⟨u, hu, noneB⟩ := frameDecode_resp_of_disturbed .b k raw hq
      exact ⟨t, u, ht, hu, noneA.trans noneB.symm⟩

end Sys2Proof.Machine
end

section
/-! The measurement converter (42_measurement_decoder.md R120 to R125). A 32-bit pattern is its two words or its four
Bytes, most significant first; R122's numerators fit the record's 32-bit fields, so a reader recovers them exactly. -/

namespace Sys2Proof.Machine

/-! ### Patterns, their words and their Bytes -/

/-- The word received first is the high half of a pattern (R53, R121). -/
theorem toNat_append_word (u v : Word) : (u ++ v : Pattern).toNat = u.toNat * 65536 + v.toNat := by
  rw [BitVec.toNat_append, ← Nat.shiftLeft_add_eq_or_of_lt v.isLt, Nat.shiftLeft_eq]

/-- The Bytes of a pattern are those of its two words (R52). -/
theorem be32_append_word (u v : Word) : be32 (u ++ v) = be16 u ++ be16 v := by
  have high (k : Nat) (h : 16 ≤ k) : (u ++ v).extractLsb' k 8 = u.extractLsb' (k - 16) 8 :=
    BitVec.extractLsb'_append_eq_of_le h
  have low (k : Nat) (h : k + 8 ≤ 16) : (u ++ v).extractLsb' k 8 = v.extractLsb' k 8 :=
    BitVec.extractLsb'_append_eq_of_add_le h
  rw [be32, high 24 (by decide), high 16 (by decide), low 8 (by decide), low 0 (by decide)]
  rfl

/-- A pattern's Bytes, put together again, are the pattern. -/
theorem append_bytes_of_be32 (v : Pattern) :
    (v.extractLsb' 24 8 ++ v.extractLsb' 16 8 ++ v.extractLsb' 8 8 ++ v.extractLsb' 0 8 : Pattern) = v := by
  have join (k m n : Nat) : v.extractLsb' (k + n) m ++ v.extractLsb' k n = v.extractLsb' k (m + n) :=
    BitVec.extractLsb'_append_extractLsb'_eq_extractLsb' rfl
  rw [join 16 8 8, join 8 16 8, join 0 24 8]
  exact BitVec.extractLsb'_eq_self

/-! ### The numerators (R122) -/

theorem tempNumerator_eq (w : Word) : tempNumerator w = 175 * (w.toNat : Int) - 2949075 := rfl

theorem humNumerator_eq (w : Word) : humNumerator w = 100 * (w.toNat : Int) := rfl

theorem tempNumerator_bounds (w : Word) : -2949075 ≤ tempNumerator w ∧ tempNumerator w ≤ 8519550 := by
  have := w.isLt
  rw [tempNumerator_eq]
  omega

theorem humNumerator_bounds (w : Word) : 0 ≤ humNumerator w ∧ humNumerator w ≤ 6553500 := by
  have := w.isLt
  rw [humNumerator_eq]
  omega

theorem physical_eq_div (num : Int) : physical num = num / 65535 := Rat.mkRat_eq_div num 65535

/-- 45 degrees are 45·65535 over the common denominator. -/
theorem physical_tempNumerator (w : Word) : physical (tempNumerator w) = -45 + 175 * (w.toNat : Rat) / 65535 := by
  rw [physical_eq_div, tempNumerator_eq]
  push_cast
  ring

theorem physical_humNumerator (w : Word) : physical (humNumerator w) = 100 * (w.toNat : Rat) / 65535 := by
  rw [physical_eq_div, humNumerator_eq]
  push_cast
  rfl

/-! ### The records (R123, R124) -/

/-- A float record is KIND and the six words as they came. -/
theorem measData_float (u0 u1 u2 u3 u4 u5 : Word) :
    measData .float [u0, u1, u2, u3, u4, u5] = 0x00 :: wordBytes [u0, u1, u2, u3, u4, u5] := by
  simp only [measData, measDecode_float, measRecord, be32_append_word]
  rfl

theorem measData_fixed (w0 w1 w2 : Word) :
    measData .fixed [w0, w1, w2] = measRecord (.fixedMeas w0 (tempNumerator w1) (humNumerator w2)) := rfl

/-- What the reader finds in a fixed-point record: the numerators as far as their fields hold them. -/
theorem readFixedRecord_measRecord (co2 : Word) (t h : Int) : readFixedRecord (measRecord (.fixedMeas co2 t h)) =
    some (co2, (BitVec.ofInt 32 t).toInt, ((BitVec.ofInt 32 h).toNat : Int)) := by
  simp only [measRecord, be16, be32, List.cons_append, List.nil_append, readFixedRecord, if_true, word_hi_lo,
    append_bytes_of_be32]

/-- The fields hold a signed and an unsigned 32-bit numerator exactly. -/
theorem readFixedRecord_measRecord_of_fits (co2 : Word) {t h : Int} (ht : -2 ^ 31 ≤ t ∧ t < 2 ^ 31)
    (hh : 0 ≤ h ∧ h < 2 ^ 32) : readFixedRecord (measRecord (.fixedMeas co2 t h)) = some (co2, t, h) := by
  obtain ⟨tMin, tMax⟩ := ht
  have signed : (BitVec.ofInt 32 t).toInt = t := BitVec.toInt_ofInt_eq_self (by decide) tMin tMax
  have unsigned : ((BitVec.ofInt 32 h).toNat : Int) = h := by
    rw [BitVec.toNat_ofInt]
    omega
  rw [readFixedRecord_measRecord, signed, unsigned]

/-- Settles O13: the words are the halves of the patterns, and the record repeats them. -/
theorem floatRulePassesPatterns : Obligations.FloatRulePassesPatterns := fun u0 u1 u2 u3 u4 u5 =>
  ⟨⟨_, _, _, measDecode_float u0 u1 u2 u3 u4 u5, toNat_append_word u0 u1, toNat_append_word u2 u3,
    toNat_append_word u4 u5⟩, measData_float u0 u1 u2 u3 u4 u5⟩

/-- Settles O14: the numerators of R122, their ranges, and their quotients by the common denominator. -/
theorem fixedRuleExact : Obligations.FixedRuleExact := by
  intro w0 w1 w2
  obtain ⟨tempMin, tempMax⟩ := tempNumerator_bounds w1
  obtain ⟨humMin, humMax⟩ := humNumerator_bounds w2
  exact ⟨tempNumerator w1, humNumerator w2, measDecode_fixed w0 w1 w2, tempNumerator_eq w1, humNumerator_eq w2,
    tempMin, tempMax, humMin, humMax, physical_tempNumerator w1, physical_humNumerator w2⟩

/-- Settles O15: R122's ranges lie within the record's fields. -/
theorem fixedRecordReadsBack : Obligations.FixedRecordReadsBack := by
  intro w0 w1 w2
  have temp := tempNumerator_bounds w1
  have hum := humNumerator_bounds w2
  rw [← tempNumerator_eq, ← humNumerator_eq, measData_fixed]
  exact ⟨rfl, readFixedRecord_measRecord_of_fits w0 (by omega) (by omega)⟩

/-! ### MEAS_DECODE (R125) -/

/-- MEAS_DECODE is a pure operation, with the record of its own rule as its result. -/
theorem exec_measDecode (r : DecodeRule) (ws : List Word) {s : State} (hq : s.undisturbed 3) :
    exec (.measDecode r ws) s =
      .next (s.answered (.measDecode r ws) 3 (s.clock 3) (statusOk :: measData r ws)) :=
  exec_of_pureRule (i := .measDecode r ws) (f := fun _ => measData r ws) rfl hq

/-- A humidity numerator is not negative, so its field is its natural number. -/
theorem ofInt_humNumerator (w : Word) : BitVec.ofInt 32 (humNumerator w) = BitVec.ofNat 32 (100 * w.toNat) :=
  BitVec.ofInt_natCast 32 (100 * w.toNat)

/-- Settles O20: the record is that of the operation's own rule, whatever VARIANT is. -/
theorem measDecodeCompletes : Obligations.MeasDecodeCompletes := by
  refine ⟨fun u0 u1 u2 u3 u4 u5 s hq => ?_, fun w0 w1 w2 s hq => ?_⟩
  · rw [exec_measDecode _ _ hq, measData_float]
    rfl
  · rw [exec_measDecode _ _ hq, measData_fixed, measRecord, ofInt_humNumerator, tempNumerator_eq]
    rfl

end Sys2Proof.Machine
end

section
/-! The round trips of the session and configuration operations (43_session.md R130 to R132): what their lines make of
a state that holds all that an operation has changed so far. `State.during` puts such a state before its k-th
micro-step; each micro-step, each half of `Transact` and each form of `Finish` is one rule about it. -/

namespace Sys2Proof.Machine

/-! ### States between two micro-steps -/

/-- The state before micro-step k of operation i, NOW being t: s is the state that the operation was begun in, changed
as its micro-steps have changed it. -/
def State.during (s : State) (i : Instr) (k t : Nat) : State :=
  { s with now := t, draws := s.draws.drop k, drawn := s.drawn + k, cur := i, phase := .exec, stepIndex := k }

/-- s without an operation's local values, as its ACCEPT finds it. -/
def State.cleared (s : State) : State := { s with words := [], data := [], failed := none }

/-- s with SESSION = x. -/
def State.inSession (s : State) (x : Session) : State := { s with session := x }

/-- s with the decoded words ws. -/
def State.withWords (s : State) (ws : List Word) : State := { s with words := ws }

/-- s with the computed result `data`. -/
def State.withData (s : State) (data : List Byte) : State := { s with data := data }

/-- s with `frame` in TXBUF. -/
def State.framed (s : State) (frame : List Byte) : State := { s with txbuf := frame, txWritten := true }

/-- s after a successful write of `frame` for command c at time t: the deadline is set (R131). -/
def State.wrote (s : State) (c : CmdName) (frame : List Byte) (t : Nat) : State :=
  { s.framed frame with
    readyAt := t + settling s.params c
    busLog := s.busLog ++ [s.writeEvent frame t s.readyAt .ok] }

/-- s after a failing write of `frame` at time t: the deadline stays (10_state.md R25). -/
def State.wroteInVain (s : State) (frame : List Byte) (t : Nat) : State :=
  { s.framed frame with busLog := s.busLog ++ [s.writeEvent frame t s.readyAt .fail] }

/-- s after a read that delivered `bytes` at time t (R131). -/
def State.received (s : State) (bytes : List Byte) (n t : Nat) : State :=
  { s with rxbuf := bytes, rxWritten := true, busLog := s.busLog ++ [s.readEvent n bytes t s.readyAt .ok] }

/-- s after a failing read of n Bytes at time t. -/
def State.readInVain (s : State) (n t : Nat) : State :=
  { s with busLog := s.busLog ++ [s.readEvent n [] t s.readyAt .fail] }

/-- s after micro-step k of an operation has failed with f. -/
def State.failedAt (s : State) (f : Failure) (k : Nat) : State :=
  { s with failed := some { failure := f, atStep := k } }

section
variable (s : State) (i : Instr) (k t : Nat)

@[simp] theorem State.drawAt_during (j : Nat) : (s.during i k t).drawAt j = s.drawAt (k + j) :=
  drawFrom_drop s.draws k s.drawn j

theorem State.begin_eq_during : s.begin i = s.cleared.during i 0 s.now := rfl

/-- The boundary before micro-step k: NOW advances and a draw is used, STEP is still k. -/
theorem State.tick_during :
    (s.during i k t).tick = { s.during i (k + 1) (t + (s.drawAt k).delay) with stepIndex := k } := by
  have time : (s.during i k t).tick.now = t + (s.drawAt k).delay := by
    rw [State.tick_now, State.drawAt_during, Nat.add_zero]
    rfl
  have left : (s.during i k t).tick.draws = s.draws.drop (k + 1) := List.drop_drop ..
  simp only [State.during, ← time, ← left]
  rfl

/-! ### Micro-steps -/

theorem perform_waitReady_during (d : Draw) : perform .waitReady d (s.during i k t).tick =
    s.during i (k + 1) (max (t + (s.drawAt k).delay) s.readyAt) := by
  rw [State.tick_during]
  rfl

theorem perform_setSession_during (x : Session) (d : Draw) : perform (.setSession x) d (s.during i k t).tick =
    (s.inSession x).during i (k + 1) (t + (s.drawAt k).delay) := by
  rw [State.tick_during]
  rfl

/-- COMPUTE keeps the result of a function of the state. -/
theorem perform_compute_during {f : State → List Byte} {data : List Byte} (d : Draw)
    (hd : f (s.during i k t).tick = data) : perform (.compute f) d (s.during i k t).tick =
      (s.withData data).during i (k + 1) (t + (s.drawAt k).delay) := by
  simp only [perform, hd]
  rw [State.tick_during]
  rfl

theorem perform_loadFrame_during {c : CmdName} {w : Word} (payload : List Byte) (d : Draw)
    (hw : commandWord s.params c = some w) : perform (.loadFrame c payload) d (s.during i k t).tick =
      (s.framed (s.frame w payload)).during i (k + 1) (t + (s.drawAt k).delay) := by
  have code : commandWord (s.during i k t).tick.params c = some w := hw
  simp only [perform, loadFrame, code]
  rw [State.tick_during]
  rfl

theorem perform_write_during (c : CmdName) (frame : List Byte) (n : Nat) {d : Draw} (ok : d.ok = true) :
    perform (.write c n) d ((s.framed frame).during i k t).tick =
      (s.wrote c frame (t + (s.drawAt k).delay)).during i (k + 1) (t + (s.drawAt k).delay) := by
  simp only [perform, busWrite, ok, if_true, State.tick_during]
  rfl

theorem perform_write_during_of_fail (c : CmdName) (frame : List Byte) (n : Nat) {d : Draw} (fail : d.ok = false) :
    perform (.write c n) d ((s.framed frame).during i k t).tick =
      ((s.wroteInVain frame (t + (s.drawAt k).delay)).failedAt (writeFailure n) k).during i (k + 1)
        (t + (s.drawAt k).delay) := by
  simp only [perform, busWrite, fail, Bool.false_eq_true, if_false, State.tick_during]
  rfl

theorem perform_read_during (m n : Nat) (ok : (s.drawAt k).ok = true) :
    perform (.read m n) (s.drawAt k) (s.during i k t).tick =
      (s.received (s.delivered k m) m (t + (s.drawAt k).delay)).during i (k + 1) (t + (s.drawAt k).delay) := by
  simp only [perform, busRead, ok, if_true, State.tick_during]
  rfl

theorem perform_read_during_of_fail (m n : Nat) {d : Draw} (fail : d.ok = false) :
    perform (.read m n) d (s.during i k t).tick =
      ((s.readInVain m (t + (s.drawAt k).delay)).failedAt (readFailure n) k).during i (k + 1)
        (t + (s.drawAt k).delay) := by
  simp only [perform, busRead, fail, Bool.false_eq_true, if_false, State.tick_during]
  rfl

theorem perform_decodeBuffer_during {m : Nat} {ws : List Word} (n : Nat) (d : Draw)
    (good : decodeWords s.rxbuf m = some ws) : perform (.decodeBuffer m n) d (s.during i k t).tick =
      (s.withWords ws).during i (k + 1) (t + (s.drawAt k).delay) := by
  have checked : decodeWords (s.during i k t).tick.rxbuf m = some ws := good
  simp only [perform, decodeInto, checked]
  rw [State.tick_during]
  rfl

theorem perform_decodeBuffer_during_of_bad {m : Nat} (n : Nat) (d : Draw) (bad : decodeWords s.rxbuf m = none) :
    perform (.decodeBuffer m n) d (s.during i k t).tick =
      (s.failedAt (checksumFailure n) k).during i (k + 1) (t + (s.drawAt k).delay) := by
  have checked : decodeWords (s.during i k t).tick.rxbuf m = none := bad
  simp only [perform, decodeInto, checked]
  rw [State.tick_during]
  rfl

/-- ACCEPT passes where its checks do (R130). -/
theorem perform_accept_during {needs : List CmdName} {allowed : List Session} (e : WrongSession) (d : Draw)
    (codes : ∀ c ∈ needs, commandWord s.params c ≠ none) (session : s.session ∈ allowed)
    (due : s.params.policy = .report → s.readyAt ≤ t + (s.drawAt k).delay) :
    perform (.accept needs allowed e) d (s.during i k t).tick = s.during i (k + 1) (t + (s.drawAt k).delay) := by
  rw [State.tick_during]
  rcases acceptChecks_cases needs allowed e { s.during i (k + 1) (t + (s.drawAt k).delay) with stepIndex := k } with
    ⟨⟨c, hc, absent⟩, _⟩ | ⟨_, ⟨wrong, _⟩ | ⟨_, ⟨report, early, _⟩ | ⟨_, passed⟩⟩⟩
  · exact absurd absent (codes c hc)
  · exact absurd session wrong
  · exact absurd (due report) early.not_ge
  · exact passed

end

/-! ### Lines -/

section
variable {s v : State} {i : Instr} {k t t' : Nat} {l : Line} {rest : List Line} {f : PendingFailure}

/-- A quiet line that does not fail leads to the next one. -/
theorem runLines_during (hq : (s.drawAt k).reset = false)
    (hv : perform l.act (s.drawAt k) (s.during i k t).tick = v.during i (k + 1) t') (hf : v.failed = none) :
    runLines (l :: rest) (s.during i k t) = runLines rest (v.during i (k + 1) t') := by
  have draw : (s.during i k t).drawAt 0 = s.drawAt k := s.drawAt_during i k t 0
  exact runLines_cons_of_ok (draw ▸ hq) (draw ▸ hv) rfl hf

/-- A quiet line that fails leads to its error part. -/
theorem runLines_during_of_failed (hq : (s.drawAt k).reset = false)
    (hv : perform l.act (s.drawAt k) (s.during i k t).tick = v.during i (k + 1) t') (hf : v.failed = some f) :
    runLines (l :: rest) (s.during i k t) = runActs l.onError (v.during i (k + 1) t') := by
  have draw : (s.during i k t).drawAt 0 = s.drawAt k := s.drawAt_during i k t 0
  rw [runLines_cons, runAct_of_quiet (draw ▸ hq), draw, hv]
  exact afterLine_of_failed _ _ rfl hf

/-- A quiet micro-step of an error part leads to the next one. -/
theorem runActs_during {a : Act} {acts : List Act} (hq : (s.drawAt k).reset = false)
    (hv : perform a (s.drawAt k) (s.during i k t).tick = v.during i (k + 1) t') :
    runActs (a :: acts) (s.during i k t) = runActs acts (v.during i (k + 1) t') := by
  have draw : (s.during i k t).drawAt 0 = s.drawAt k := s.drawAt_during i k t 0
  rw [runActs_cons, runAct_of_quiet (draw ▸ hq), draw, hv]
  exact afterAct_of_exec _ rfl

end

/-! ### `Finish` and RESPOND (R132) -/

section
variable {s : State} {k t : Nat} (i : Instr)

/-- A response at micro-step k leaves what the operation has made of s. -/
theorem State.respondWith_during (frame : List Byte) : (s.during i k t).tick.respondWith frame =
    s.answered i (k + 1) (t + (s.drawAt k).delay) frame := by
  rw [State.tick_during]
  rfl

/-- RESPOND answers with a result that the state has at each moment from here on. -/
theorem runLines_respond_during {f : State → List Byte} {data : List Byte} (hq : (s.drawAt k).reset = false)
    (hd : ∀ j u, f (s.during i j u).tick = data) : runLines [line (.respond f)] (s.during i k t) =
      s.answered i (k + 1) (t + (s.drawAt k).delay) (statusOk :: data) := by
  rw [runLines_cons_respond (by simpa using hq), hd]
  exact State.respondWith_during i _

theorem runActs_raise_during {f : PendingFailure} (hq : (s.drawAt k).reset = false) (hf : s.failed = some f) :
    runActs [.raise] (s.during i k t) = s.answered i (k + 1) (t + (s.drawAt k).delay) f.failure.frame := by
  have met : (s.during i k t).failed = some f := hf
  rw [runActs_raise (by simpa using hq) met]
  exact State.respondWith_during i _

/-- `Finish; respond(...)`: under BLOCK_IN_CALL the response waits for the deadline. -/
theorem runLines_finishOk {f : State → List Byte} {data : List Byte}
    (hq : s.undisturbed (k + finishSteps s.params)) (hf : s.failed = none)
    (hd : ∀ j u, f (s.during i j u).tick = data) : runLines (finishOk s.params f) (s.during i k t) =
      s.answered i (k + finishSteps s.params) (s.respondTime k t s.readyAt) (statusOk :: data) := by
  simp only [finishOk, finishSteps, State.respondTime, finishActs] at hq ⊢
  cases hp : s.params.policy with
  | blockInCall =>
    simp only [hp] at hq
    exact (runLines_during (hq k (by simp)) (perform_waitReady_during ..) hf).trans
      (runLines_respond_during i (hq (k + 1) (by simp)) hd)
  | hold =>
    simp only [hp] at hq
    exact runLines_respond_during i (hq k (by simp)) hd
  | report =>
    simp only [hp] at hq
    exact runLines_respond_during i (hq k (by simp)) hd

/-- `Finish; raise E(i)`: errors wait for the deadline too (92_eei_decisions.md D40). -/
theorem runActs_finishError {f : PendingFailure} (hq : s.undisturbed (k + finishSteps s.params))
    (hf : s.failed = some f) : runActs (finishError s.params) (s.during i k t) =
      s.answered i (k + finishSteps s.params) (s.respondTime k t s.readyAt) f.failure.frame := by
  simp only [finishError, finishSteps, State.respondTime, finishActs] at hq ⊢
  cases hp : s.params.policy with
  | blockInCall =>
    simp only [hp] at hq
    exact (runActs_during (hq k (by simp)) (perform_waitReady_during ..)).trans
      (runActs_raise_during i (hq (k + 1) (by simp)) hf)
  | hold =>
    simp only [hp] at hq
    exact runActs_raise_during i (hq k (by simp)) hf
  | report =>
    simp only [hp] at hq
    exact runActs_raise_during i (hq k (by simp)) hf

end

/-! ### `Transact` (R131) -/

/-- The lines of a round trip that send its command. -/
def sendLines (c : CmdName) (payload : List Byte) (n : Nat) (onError : List Act) : List Line :=
  [line (.loadFrame c payload), line .waitReady, { act := .write c n, onError := onError }]

/-- The lines of a round trip that read its response, if its command has one. -/
def replyLines (p : Params) (c : CmdName) (n : Nat) (onError : List Act) : List Line :=
  match responseWords p.variant c with
  | 0 => []
  | m + 1 => transactRead (m + 1) n onError

theorem transact_eq_append (p : Params) (c : CmdName) (payload : List Byte) (n : Nat) (onError : List Act) :
    transact p c payload n onError = sendLines c payload n onError ++ replyLines p c n onError := rfl

theorem replyLines_of_no_read {p : Params} {c : CmdName} (h : responseWords p.variant c = 0) (n : Nat)
    (onError : List Act) : replyLines p c n onError = [] := by
  simp only [replyLines, h]

theorem replyLines_of_read {p : Params} {c : CmdName} (h : responseWords p.variant c ≠ 0) (n : Nat)
    (onError : List Act) : replyLines p c n onError = transactRead (responseWords p.variant c) n onError := by
  obtain ⟨m, hm⟩ := Nat.exists_eq_succ_of_ne_zero h
  simp only [replyLines, hm]

/-- NOW at the WRITE of a round trip whose COMPUTE is micro-step k, NOW being t before it. -/
def State.sendTime (s : State) (k t : Nat) : Nat :=
  max (t + (s.drawAt k).delay + (s.drawAt (k + 1)).delay) s.readyAt + (s.drawAt (k + 2)).delay

/-- NOW at the READ of a round trip whose settling WAIT is micro-step k, NOW being t before it. -/
def State.receiveTime (s : State) (k t : Nat) : Nat :=
  max (t + (s.drawAt k).delay) s.readyAt + (s.drawAt (k + 1)).delay

section
variable {s : State} {c : CmdName} {w : Word} {payload : List Byte} {onError : List Act} {k t n m : Nat}
  (i : Instr) (rest : List Line)

/-- Up to its WRITE a round trip only fills TXBUF and waits. -/
theorem runLines_sendLines (hw : commandWord s.params c = some w) (h0 : (s.drawAt k).reset = false)
    (h1 : (s.drawAt (k + 1)).reset = false) (hf : s.failed = none) :
    runLines (sendLines c payload n onError ++ rest) (s.during i k t) =
      runLines ({ act := .write c n, onError := onError } :: rest)
        ((s.framed (s.frame w payload)).during i (k + 2)
          (max (t + (s.drawAt k).delay + (s.drawAt (k + 1)).delay) s.readyAt)) :=
  (runLines_during (v := s.framed (s.frame w payload)) h0 (perform_loadFrame_during s i k t payload _ hw) hf).trans
    (runLines_during (v := s.framed (s.frame w payload)) h1 (perform_waitReady_during ..) hf)

/-- A write that the bus answers with OK goes on to the read, or to what follows the round trip. -/
theorem runLines_sendLines_of_ok (hw : commandWord s.params c = some w) (hq : s.undisturbed (k + 3))
    (hf : s.failed = none) (ok : (s.drawAt (k + 2)).ok = true) :
    runLines (sendLines c payload n onError ++ rest) (s.during i k t) =
      runLines rest ((s.wrote c (s.frame w payload) (s.sendTime k t)).during i (k + 3) (s.sendTime k t)) :=
  (runLines_sendLines i rest hw (hq k (by omega)) (hq (k + 1) (by omega)) hf).trans
    (runLines_during (hq (k + 2) (by omega)) (perform_write_during s i _ _ c _ n ok)
      hf)

theorem runLines_sendLines_of_fail (hw : commandWord s.params c = some w) (hq : s.undisturbed (k + 3))
    (hf : s.failed = none) (fail : (s.drawAt (k + 2)).ok = false) :
    runLines (sendLines c payload n onError ++ rest) (s.during i k t) =
      runActs onError (((s.wroteInVain (s.frame w payload) (s.sendTime k t)).failedAt (writeFailure n) (k + 2)).during i
        (k + 3) (s.sendTime k t)) :=
  (runLines_sendLines i rest hw (hq k (by omega)) (hq (k + 1) (by omega)) hf).trans
    (runLines_during_of_failed (hq (k + 2) (by omega))
      (perform_write_during_of_fail s i _ _ c _ n fail) rfl)

theorem runLines_transactRead_of_fail (hq : s.undisturbed (k + 2)) (hf : s.failed = none)
    (fail : (s.drawAt (k + 1)).ok = false) : runLines (transactRead m n onError ++ rest) (s.during i k t) =
      runActs onError (((s.readInVain (3 * m) (s.receiveTime k t)).failedAt (readFailure n) (k + 1)).during i (k + 2)
        (s.receiveTime k t)) :=
  (runLines_during (hq k (by omega)) (perform_waitReady_during ..) hf).trans
    (runLines_during_of_failed (hq (k + 1) (by omega)) (perform_read_during_of_fail s i _ _ _ n fail) rfl)

/-- A read that the bus answers with OK goes on to the check of the response. -/
theorem runLines_transactRead_of_ok (hq : s.undisturbed (k + 2)) (hf : s.failed = none)
    (ok : (s.drawAt (k + 1)).ok = true) : runLines (transactRead m n onError ++ rest) (s.during i k t) =
      runLines ({ act := .decodeBuffer m n, onError := onError } :: rest)
        ((s.received (s.delivered (k + 1) (3 * m)) (3 * m) (s.receiveTime k t)).during i (k + 2) (s.receiveTime k t)) :=
  (runLines_during (hq k (by omega)) (perform_waitReady_during ..) hf).trans
    (runLines_during (hq (k + 1) (by omega)) (perform_read_during s i _ _ _ n ok) hf)

theorem runLines_transactRead_of_bad (hq : s.undisturbed (k + 3)) (hf : s.failed = none)
    (ok : (s.drawAt (k + 1)).ok = true) (bad : decodeWords (s.delivered (k + 1) (3 * m)) m = none) :
    runLines (transactRead m n onError ++ rest) (s.during i k t) =
      runActs onError
        (((s.received (s.delivered (k + 1) (3 * m)) (3 * m) (s.receiveTime k t)).failedAt (checksumFailure n)
          (k + 2)).during i (k + 3) (s.receiveTime k t + (s.drawAt (k + 2)).delay)) :=
  (runLines_transactRead_of_ok i rest (fun j hj => hq j (by omega)) hf ok).trans
    (runLines_during_of_failed (hq (k + 2) (by omega)) (perform_decodeBuffer_during_of_bad _ i _ _ n _ bad) rfl)

/-- A response that passes its check leaves its words. -/
theorem runLines_transactRead_of_good {ws : List Word} (hq : s.undisturbed (k + 3)) (hf : s.failed = none)
    (ok : (s.drawAt (k + 1)).ok = true) (good : decodeWords (s.delivered (k + 1) (3 * m)) m = some ws) :
    runLines (transactRead m n onError ++ rest) (s.during i k t) =
      runLines rest
        (((s.received (s.delivered (k + 1) (3 * m)) (3 * m) (s.receiveTime k t)).withWords ws).during i (k + 3)
          (s.receiveTime k t + (s.drawAt (k + 2)).delay)) :=
  (runLines_transactRead_of_ok i rest (fun j hj => hq j (by omega)) hf ok).trans
    (runLines_during (hq (k + 2) (by omega)) (perform_decodeBuffer_during _ i _ _ n _ good) hf)

end

end Sys2Proof.Machine
end

section
/-! The operations that send one command (43_session.md R134 to R137, R139; 44_config_status.md R160 to R164) up to the
lines after their first round trip, in the cases that its bus accesses and its CRC check have. -/

namespace Sys2Proof.Machine

/-! ### The rules after their first round trip -/

/-- The lines of SINGLE_SHOT after its second round trip (R138). -/
def linesAfterSecond (p : Params) : List Line :=
  line (.setSession .stopped) :: line (.compute measurementData) :: finishOk p computedData

/-- The lines of a session or configuration operation that come after its first round trip (R134 to R139, R160 to
R164); the other operations have no round trip. -/
def linesAfterFirst : Instr → Params → List Line
  | .startPeriodic _, p => line (.setSession .periodicRunning) :: finishOk p noData
  | .stopPeriodic, p => line (.setSession .stopped) :: finishOk p noData
  | .factoryReset, p => line (.setSession .stopped) :: finishOk p noData
  | .dataReady, p => line (.compute readyData) :: finishOk p computedData
  | .readMeasurement, p => line (.compute measurementData) :: finishOk p computedData
  | .singleShot, p => line (.setSession .singleShotPending) ::
      (transact p .readMeasurement [] 1 (secondErrorPart p) ++ linesAfterSecond p)
  | .setAltitude _, p => finishOk p noData
  | .setTempOffset _, p => finishOk p noData
  | .setAutoCal _, p => finishOk p noData
  | .getAltitude, p => finishOk p wordData
  | .getTempOffset, p => finishOk p wordData
  | _, _ => []

/-- Every operation that sends a command has ACCEPT, the round trip of its first command, and then the rest. -/
theorem ruleOfInstr_of_firstCommand {i : Instr} {c : CmdName} {payload : List Byte}
    (h : firstCommand i = some (c, payload)) (p : Params) : ∃ allowed e,
      ruleOfInstr i p = line (.accept (needsOf i) allowed e) ::
        (transact p c payload 0 (finishError p) ++ linesAfterFirst i p) ∧
      ∀ x, sessionAllows i x = true → x ∈ allowed := by
  cases i with
  | startPeriodic | dataReady | readMeasurement | singleShot =>
    cases h
    exact ⟨_, _, rfl, fun x hx => by simpa [sessionAllows] using hx⟩
  | stopPeriodic | factoryReset | setAltitude | getAltitude | setTempOffset | getTempOffset | setAutoCal =>
    cases h
    exact ⟨anySession, _, rfl, fun x _ => by cases x <;> simp [anySession]⟩
  | crcCompute | crcVerify | frameEncode | frameDecode | measDecode | status => cases h

theorem needsOf_of_readCommand {i : Instr} {c : CmdName} (h : readCommand i = some c) : needsOf i = [c] := by
  cases i <;> cases h <;> rfl

/-- The operations with one round trip that reads send no payload. -/
theorem firstCommand_of_readCommand {i : Instr} {c : CmdName} (h : readCommand i = some c) :
    firstCommand i = some (c, []) := by
  cases i <;> cases h <;> rfl

/-- What they ask for is settled by T_CMD_MS (R133). -/
theorem settling_of_readCommand {i : Instr} {c : CmdName} (h : readCommand i = some c) (p : Params) :
    settling p c = p.tCmd := by
  cases i <;> cases h <;> rfl

theorem responseWords_of_readCommand {i : Instr} {c : CmdName} (h : readCommand i = some c) (v : Variant) :
    responseWords v c ≠ 0 := by
  cases i <;> cases h <;> cases v <;> decide

/-- A single needed command that has a code is all the support an operation asks for. -/
theorem State.supports_of_needsOf {s : State} {i : Instr} {c : CmdName} {w : Word} (hn : needsOf i = [c])
    (hw : commandWord s.params c = some w) : s.supports i := by
  simp [State.supports, hn, hw]

/-! ### The first round trip -/

/-- s after the successful first write, `frame` for command c, of an operation begun there. -/
def State.sentFirst (s : State) (c : CmdName) (frame : List Byte) : State := s.cleared.wrote c frame s.writeTime

/-- NOW at the READ of an operation begun at s whose first command c has a response. -/
def State.firstReadTime (s : State) (c : CmdName) : Nat := s.readTime 3 s.writeTime (s.writeTime + settling s.params c)

/-- s after the successful first read, of the response to c, of an operation begun there. -/
def State.readFirst (s : State) (c : CmdName) (frame : List Byte) : State :=
  (s.sentFirst c frame).received (s.delivered 5 (3 * responseWords s.params.variant c))
    (3 * responseWords s.params.variant c) (s.firstReadTime c)

section
variable {s : State} {i : Instr} {c : CmdName} {payload : List Byte} {w : Word}

/-- An operation that ACCEPT lets pass goes on to its first round trip. -/
theorem exec_of_accepted (hc : firstCommand i = some (c, payload)) (hs : s.supports i)
    (ha : sessionAllows i s.session = true) (ht : s.onTime) (hq : (s.drawAt 0).reset = false) :
    exec i s = .next (runLines (sendLines c payload 0 (finishError s.params) ++
      (replyLines s.params c 0 (finishError s.params) ++ linesAfterFirst i s.params))
        (s.cleared.during i 1 (s.clock 1))) := by
  obtain ⟨allowed, e, rule, sessions⟩ := ruleOfInstr_of_firstCommand hc s.params
  rw [exec_eq_runLines, rule, transact_eq_append, List.append_assoc, State.begin_eq_during]
  exact congrArg _ (runLines_during (s := s.cleared) (v := s.cleared) (k := 0) hq
    (perform_accept_during s.cleared i 0 s.now e _ hs (sessions _ ha) ht) rfl)

/-- A first write that the bus answers with OK leaves the deadline of its command in force. -/
theorem exec_of_sent (hc : firstCommand i = some (c, payload)) (hw : commandWord s.params c = some w)
    (hs : s.supports i) (ha : sessionAllows i s.session = true) (ht : s.onTime) (hq : s.undisturbed 4)
    (ok : (s.drawAt 3).ok = true) :
    exec i s = .next (runLines (replyLines s.params c 0 (finishError s.params) ++ linesAfterFirst i s.params)
      ((s.sentFirst c (s.frame w payload)).during i 4 s.writeTime)) :=
  (exec_of_accepted hc hs ha ht (hq 0 (by decide))).trans
    (congrArg _ (runLines_sendLines_of_ok (s := s.cleared) (k := 1) i _ hw hq rfl ok))

/-- A first command without a response leaves the rest of the rule to run. -/
theorem exec_of_sent_no_read (hc : firstCommand i = some (c, payload)) (hr : responseWords s.params.variant c = 0)
    (hw : commandWord s.params c = some w) (hs : s.supports i) (ha : sessionAllows i s.session = true) (ht : s.onTime)
    (hq : s.undisturbed 4) (ok : (s.drawAt 3).ok = true) :
    exec i s = .next (runLines (linesAfterFirst i s.params)
      ((s.sentFirst c (s.frame w payload)).during i 4 s.writeTime)) := by
  rw [exec_of_sent hc hw hs ha ht hq ok, replyLines_of_no_read hr, List.nil_append]

/-- What the operations with one round trip that reads leave to run after their write. -/
theorem exec_of_sent_read (hc : readCommand i = some c) (hw : commandWord s.params c = some w)
    (ha : sessionAllows i s.session = true) (ht : s.onTime) (hq : s.undisturbed 4) (ok : (s.drawAt 3).ok = true) :
    exec i s = .next (runLines
      (transactRead (responseWords s.params.variant c) 0 (finishError s.params) ++ linesAfterFirst i s.params)
      ((s.sentFirst c (s.frame w [])).during i 4 s.writeTime)) := by
  have supported := State.supports_of_needsOf (needsOf_of_readCommand hc) hw
  rw [exec_of_sent (firstCommand_of_readCommand hc) hw supported ha ht hq ok,
    replyLines_of_read (responseWords_of_readCommand hc _)]

/-! ### Operations that read nothing -/

/-- A command without a response, after which the operation enters SESSION x and answers OK. -/
theorem exec_of_session_command {x : Session} (hc : firstCommand i = some (c, payload))
    (hr : responseWords s.params.variant c = 0) (hn : needsOf i = [c])
    (hl : linesAfterFirst i s.params = line (.setSession x) :: finishOk s.params noData)
    (hw : commandWord s.params c = some w) (ha : sessionAllows i s.session = true) (ht : s.onTime)
    (hq : s.undisturbed (5 + finishSteps s.params)) (ok : (s.drawAt 3).ok = true) :
    exec i s = .next
      { s.answered i (5 + finishSteps s.params)
          (s.respondTime 5 (s.writeTime + (s.drawAt 4).delay) (s.writeTime + settling s.params c)) [0x00] with
        session := x
        readyAt := s.writeTime + settling s.params c
        txbuf := s.frame w payload
        txWritten := true
        busLog := s.busLog ++ [s.writeEvent (s.frame w payload) s.writeTime s.readyAt .ok] } := by
  rw [exec_of_sent_no_read hc hr hw (State.supports_of_needsOf hn hw) ha ht (fun j hj => hq j (by omega)) ok, hl]
  have entered := runLines_during (s := s.sentFirst c (s.frame w payload)) (l := line (.setSession x))
    (rest := finishOk s.params noData) (hq 4 (by omega)) (perform_setSession_during _ i 4 s.writeTime x _) rfl
  exact congrArg _ (entered.trans (runLines_finishOk (s := (s.sentFirst c (s.frame w payload)).inSession x)
    (data := []) i hq rfl fun _ _ => rfl))

end

/-- Settles O23: STOPPED is the SESSION that allows it, and the one round trip is a write. -/
theorem startPeriodicCompletes : Obligations.StartPeriodicCompletes := by
  intro s payload w hs hw ht hq ok
  exact exec_of_session_command (i := .startPeriodic payload) rfl rfl rfl rfl hw (by simp [sessionAllows, hs]) ht hq ok

/-- Settles O24: every SESSION allows it. -/
theorem stopPeriodicCompletes : Obligations.StopPeriodicCompletes := fun _ _ hw ht hq ok =>
  exec_of_session_command (i := .stopPeriodic) rfl rfl rfl rfl hw rfl ht hq ok

/-- Settles O25: every SESSION allows it. -/
theorem factoryResetCompletes : Obligations.FactoryResetCompletes := fun _ _ hw ht hq ok =>
  exec_of_session_command (i := .factoryReset) rfl rfl rfl rfl hw rfl ht hq ok

/-! ### Operations that read a response -/

section
variable {s : State} {i : Instr} {c : CmdName} {w : Word}

/-- A response that passes its check leaves its words to the rest of the rule. -/
theorem exec_of_read {ws : List Word} (hc : readCommand i = some c) (hw : commandWord s.params c = some w)
    (ha : sessionAllows i s.session = true) (ht : s.onTime) (hq : s.undisturbed 7) (ok : (s.drawAt 3).ok = true)
    (okRead : (s.drawAt 5).ok = true)
    (good : decodeWords (s.delivered 5 (3 * responseWords s.params.variant c)) (responseWords s.params.variant c) =
      some ws) :
    exec i s = .next (runLines (linesAfterFirst i s.params)
      (((s.readFirst c (s.frame w [])).withWords ws).during i 7 (s.firstReadTime c + (s.drawAt 6).delay))) :=
  (exec_of_sent_read hc hw ha ht (fun j hj => hq j (by omega)) ok).trans
    (congrArg _ (runLines_transactRead_of_good (s := s.sentFirst c (s.frame w [])) i _ hq rfl okRead good))

/-- An operation that computes its result from the words it read, by a function of them and of the parameters. -/
theorem exec_of_read_compute {ws : List Word} {f : State → List Byte} {data : List Byte}
    (hc : readCommand i = some c)
    (hl : linesAfterFirst i s.params = line (.compute f) :: finishOk s.params computedData)
    (hw : commandWord s.params c = some w) (ha : sessionAllows i s.session = true) (ht : s.onTime)
    (hq : s.undisturbed (8 + finishSteps s.params)) (ok : (s.drawAt 3).ok = true) (okRead : (s.drawAt 5).ok = true)
    (good : decodeWords (s.delivered 5 (3 * responseWords s.params.variant c)) (responseWords s.params.variant c) =
      some ws)
    (hf : ∀ u : State, u.words = ws → u.params = s.params → f u = data) :
    exec i s = .next
      { s.answered i (8 + finishSteps s.params)
          (s.respondTime 8 (s.firstReadTime c + (s.drawAt 6).delay + (s.drawAt 7).delay)
            (s.writeTime + settling s.params c)) (statusOk :: data) with
        readyAt := s.writeTime + settling s.params c
        txbuf := s.frame w []
        txWritten := true
        rxbuf := s.delivered 5 (3 * responseWords s.params.variant c)
        rxWritten := true
        busLog := s.busLog ++ [s.writeEvent (s.frame w []) s.writeTime s.readyAt .ok,
          s.readEvent (3 * responseWords s.params.variant c)
            (s.delivered 5 (3 * responseWords s.params.variant c)) (s.firstReadTime c)
            (s.writeTime + settling s.params c) .ok] } := by
  rw [exec_of_read hc hw ha ht (fun j hj => hq j (by omega)) ok okRead good, hl]
  have computed := runLines_during (s := (s.readFirst c (s.frame w [])).withWords ws) (l := line (.compute f))
    (rest := finishOk s.params computedData) (hq 7 (by omega))
    (perform_compute_during _ i 7 (s.firstReadTime c + (s.drawAt 6).delay) _ (hf _ rfl rfl)) rfl
  have finished := runLines_finishOk (f := computedData)
    (s := ((s.readFirst c (s.frame w [])).withWords ws).withData data)
    (t := s.firstReadTime c + (s.drawAt 6).delay + (s.drawAt 7).delay) i hq rfl fun _ _ => rfl
  rw [List.append_cons]
  exact congrArg _ (computed.trans finished)

end

/-- Settles O26: the one word that it reads is compared with 0x0001. -/
theorem dataReadyCompletes : Obligations.DataReadyCompletes := by
  intro s w x hs hw ht hq ok okRead good d r
  have result (u : State) (hu : u.words = [x]) (_ : u.params = s.params) :
      readyData u = [if x = 0x0001 then 0x01 else 0x00] := by
    simp [readyData, hu, flagByte]
  have running : sessionAllows .dataReady s.session = true := by simp [sessionAllows, hs]
  exact exec_of_read_compute (i := .dataReady) (c := .dataReady) rfl rfl hw running ht hq ok okRead good result

/-- Settles O27: the words are as many as VARIANT's rule takes, and it makes the record. -/
theorem readMeasurementCompletes : Obligations.ReadMeasurementCompletes := by
  intro s w ws hs hw ht hq ok okRead n good d r
  have words : responseWords s.params.variant .readMeasurement = n := responseWords_readMeasurement _
  have result (u : State) (hu : u.words = ws) (hp : u.params = s.params) :
      measurementData u = measData (ruleOf s.params.variant) ws := by
    rw [measurementData, hu, hp]
  have running : sessionAllows .readMeasurement s.session = true := by simp [sessionAllows, hs]
  rw [← words] at good ⊢
  exact exec_of_read_compute (i := .readMeasurement) (c := .readMeasurement) rfl rfl hw running ht hq ok okRead good
    result

/-! ### Errors of the first round trip -/

/-- Settles O35: the error part of the first write is `Finish; raise`. -/
theorem firstWriteFails : Obligations.FirstWriteFails := by
  intro s i c p w hc hw hs ha ht hq fail
  have failed := runLines_sendLines_of_fail (s := s.cleared) (k := 1) (t := s.clock 1) (payload := p) (n := 0)
    (onError := finishError s.params) i (replyLines s.params c 0 (finishError s.params) ++ linesAfterFirst i s.params)
    hw (fun j hj => hq j (by omega)) rfl fail
  rw [exec_of_accepted hc hs ha ht (hq 0 (by omega)), failed]
  exact congrArg _ (runActs_finishError
    (s := (s.cleared.wroteInVain (s.frame w p) s.writeTime).failedAt (writeFailure 0) 3) i hq rfl)

/-- Settles O36: the error part of the read is `Finish; raise`. -/
theorem readFails : Obligations.ReadFails := by
  intro s i c w hc hw ha ht hq ok fail d r
  have settles : s.writeTime + settling s.params c = d := by rw [settling_of_readCommand hc]
  have failed := runLines_transactRead_of_fail (s := s.sentFirst c (s.frame w [])) (k := 4) (t := s.writeTime)
    (m := responseWords s.params.variant c) (n := 0) (onError := finishError s.params) i (linesAfterFirst i s.params)
    (fun j hj => hq j (by omega)) rfl fail
  have finished := runActs_finishError
    (s := ((s.sentFirst c (s.frame w [])).readInVain (3 * responseWords s.params.variant c)
      (s.firstReadTime c)).failedAt (readFailure 0) 5) (t := s.firstReadTime c) i hq rfl
  rw [exec_of_sent_read hc hw ha ht (fun j hj => hq j (by omega)) ok, List.append_cons]
  simp only [r, ← settles]
  exact congrArg _ (failed.trans finished)

/-- Settles O37: the error part of the check is `Finish; raise`. -/
theorem checksumFails : Obligations.ChecksumFails := by
  intro s i c w hc hw ha ht hq ok okRead n bad d r
  have settles : s.writeTime + settling s.params c = d := by rw [settling_of_readCommand hc]
  have failed := runLines_transactRead_of_bad (s := s.sentFirst c (s.frame w [])) (k := 4) (t := s.writeTime)
    (m := n) (n := 0) (onError := finishError s.params) i (linesAfterFirst i s.params)
    (fun j hj => hq j (by omega)) rfl okRead bad
  have finished := runActs_finishError (s := (s.readFirst c (s.frame w [])).failedAt (checksumFailure 0) 6)
    (t := s.firstReadTime c + (s.drawAt 6).delay) i hq rfl
  rw [exec_of_sent_read hc hw ha ht (fun j hj => hq j (by omega)) ok, List.append_cons]
  simp only [r, ← settles]
  exact congrArg _ (failed.trans finished)

end Sys2Proof.Machine
end

section
/-! SINGLE_SHOT in each of the cases that its bus accesses and its CRC check have (43_session.md R138): the second round
trip begins where the first has entered SINGLE_SHOT_PENDING, and each of its ends returns to STOPPED. -/

namespace Sys2Proof.Machine

/-! ### Its second round trip -/

/-- s after SINGLE_SHOT's successful first write, `frame`, in SINGLE_SHOT_PENDING. -/
def State.shotPending (s : State) (frame : List Byte) : State :=
  (s.sentFirst .singleShot frame).inSession .singleShotPending

/-- NOW at SINGLE_SHOT's second WRITE: micro-step 4 enters SINGLE_SHOT_PENDING, 5 is COMPUTE, and 6 waits for the first
write's deadline. -/
def State.secondWriteTime (s : State) : Nat :=
  max (s.writeTime + (s.drawAt 4).delay + (s.drawAt 5).delay + (s.drawAt 6).delay) (s.writeTime + s.params.tSingle) +
    (s.drawAt 7).delay

/-- s after SINGLE_SHOT's successful writes of `frame` and `frame'`. -/
def State.sentSecond (s : State) (frame frame' : List Byte) : State :=
  (s.shotPending frame).wrote .readMeasurement frame' s.secondWriteTime

/-- NOW at SINGLE_SHOT's READ. -/
def State.secondReadTime (s : State) : Nat := s.readTime 7 s.secondWriteTime (s.secondWriteTime + s.params.tCmd)

/-- s after SINGLE_SHOT's successful writes and its read of n words. -/
def State.readSecond (s : State) (frame frame' : List Byte) (n : Nat) : State :=
  (s.sentSecond frame frame').received (s.delivered 9 (3 * n)) (3 * n) s.secondReadTime

/-- An error of the second round trip returns to STOPPED, then finishes as any other. -/
theorem runActs_secondErrorPart {s : State} {k t : Nat} {f : PendingFailure} (i : Instr)
    (hq : s.undisturbed (k + 1 + finishSteps s.params)) (hf : s.failed = some f) :
    runActs (secondErrorPart s.params) (s.during i k t) =
      (s.inSession .stopped).answered i (k + 1 + finishSteps s.params)
        (s.respondTime (k + 1) (t + (s.drawAt k).delay) s.readyAt) f.failure.frame :=
  (runActs_during (hq k (by omega)) (perform_setSession_during ..)).trans
    (runActs_finishError (s := s.inSession .stopped) i hq hf)

section
variable {s : State} {w v : Word} {n : Nat}

/-- A successful first write takes SINGLE_SHOT to SINGLE_SHOT_PENDING and its second round trip. -/
theorem exec_singleShot_of_sent (hs : s.session = .stopped) (hw : commandWord s.params .singleShot = some w)
    (hv : commandWord s.params .readMeasurement = some v)
    (hn : responseWords s.params.variant .readMeasurement = n) (ht : s.onTime) (hq : s.undisturbed 5)
    (ok : (s.drawAt 3).ok = true) :
    exec .singleShot s = .next (runLines (sendLines .readMeasurement [] 1 (secondErrorPart s.params) ++
      (transactRead n 1 (secondErrorPart s.params) ++ linesAfterSecond s.params))
        ((s.shotPending (s.frame w [])).during .singleShot 5 (s.writeTime + (s.drawAt 4).delay))) := by
  have supported : s.supports .singleShot := by simp [State.supports, needsOf, hw, hv]
  have stopped : sessionAllows .singleShot s.session = true := by simp [sessionAllows, hs]
  have reads : responseWords s.params.variant .readMeasurement ≠ 0 :=
    responseWords_of_readCommand (i := .readMeasurement) rfl _
  have second : transact s.params .readMeasurement [] 1 (secondErrorPart s.params) ++ linesAfterSecond s.params =
      sendLines .readMeasurement [] 1 (secondErrorPart s.params) ++
        (transactRead n 1 (secondErrorPart s.params) ++ linesAfterSecond s.params) := by
    rw [transact_eq_append, replyLines_of_read reads, hn, List.append_assoc]
  have entered := runLines_during (s := s.sentFirst .singleShot (s.frame w [])) (i := .singleShot) (t := s.writeTime)
    (l := line (.setSession .singleShotPending))
    (rest := transact s.params .readMeasurement [] 1 (secondErrorPart s.params) ++ linesAfterSecond s.params)
    (hq 4 (by decide)) (perform_setSession_during ..) rfl
  rw [exec_of_sent_no_read rfl rfl hw supported stopped ht (fun j hj => hq j (by omega)) ok, ← second]
  exact congrArg _ entered

/-- A successful second write leaves the read to run. -/
theorem exec_singleShot_of_sentSecond (hs : s.session = .stopped) (hw : commandWord s.params .singleShot = some w)
    (hv : commandWord s.params .readMeasurement = some v)
    (hn : responseWords s.params.variant .readMeasurement = n) (ht : s.onTime) (hq : s.undisturbed 8)
    (ok : (s.drawAt 3).ok = true) (ok' : (s.drawAt 7).ok = true) :
    exec .singleShot s = .next (runLines (transactRead n 1 (secondErrorPart s.params) ++ linesAfterSecond s.params)
      ((s.sentSecond (s.frame w []) (s.frame v [])).during .singleShot 8 s.secondWriteTime)) :=
  (exec_singleShot_of_sent hs hw hv hn ht (fun j hj => hq j (by omega)) ok).trans
    (congrArg _ (runLines_sendLines_of_ok (s := s.shotPending (s.frame w [])) (k := 5) .singleShot _ hv hq rfl ok'))

end

/-! ### Its ends -/

/-- Settles O38: the second write's failure leaves the first deadline in force. -/
theorem singleShotSecondWriteFails : Obligations.SingleShotSecondWriteFails := by
  intro s w v hs hw hv ht hq ok fail d1 w2
  have failed := runLines_sendLines_of_fail (s := s.shotPending (s.frame w [])) (k := 5)
    (t := s.writeTime + (s.drawAt 4).delay) (payload := []) (n := 1) (onError := secondErrorPart s.params) .singleShot
    (transactRead (responseWords s.params.variant .readMeasurement) 1 (secondErrorPart s.params) ++
      linesAfterSecond s.params) hv (fun j hj => hq j (by omega)) rfl fail
  have finished := runActs_secondErrorPart
    (s := ((s.shotPending (s.frame w [])).wroteInVain (s.frame v []) s.secondWriteTime).failedAt (writeFailure 1) 7)
    (t := s.secondWriteTime) .singleShot hq rfl
  rw [exec_singleShot_of_sent hs hw hv rfl ht (fun j hj => hq j (by omega)) ok, List.append_cons]
  exact congrArg _ (failed.trans finished)

/-- Settles O39: the two errors that can follow the second write, each with the second deadline in force. -/
theorem singleShotReadFails : Obligations.SingleShotReadFails := by
  intro s w v hs hw hv ht hq ok ok' n d1 w2 d2 r
  have words : responseWords s.params.variant .readMeasurement = n := responseWords_readMeasurement _
  have sent := exec_singleShot_of_sentSecond hs hw hv words ht (fun j hj => hq j (by omega)) ok ok'
  rw [sent]
  refine ⟨fun fail => ?_, fun okRead bad => ?_⟩
  · have quiet : s.undisturbed (11 + finishSteps s.params) := fun j hj => hq j (by omega)
    have failed := runLines_transactRead_of_fail (s := s.sentSecond (s.frame w []) (s.frame v [])) (k := 8)
      (t := s.secondWriteTime) (m := n) (n := 1) (onError := secondErrorPart s.params) .singleShot
      (linesAfterSecond s.params) (fun j hj => hq j (by omega)) rfl fail
    have finished := runActs_secondErrorPart
      (s := ((s.sentSecond (s.frame w []) (s.frame v [])).readInVain (3 * n) s.secondReadTime).failedAt (readFailure 1)
        9) (t := s.secondReadTime) .singleShot quiet rfl
    rw [List.append_cons, List.append_cons]
    exact congrArg _ (failed.trans finished)
  · have failed := runLines_transactRead_of_bad (s := s.sentSecond (s.frame w []) (s.frame v [])) (k := 8)
      (t := s.secondWriteTime) (m := n) (n := 1) (onError := secondErrorPart s.params) .singleShot
      (linesAfterSecond s.params) (fun j hj => hq j (by omega)) rfl okRead bad
    have finished := runActs_secondErrorPart
      (s := (s.readSecond (s.frame w []) (s.frame v []) n).failedAt (checksumFailure 1) 10)
      (t := s.secondReadTime + (s.drawAt 10).delay) .singleShot hq rfl
    rw [List.append_cons, List.append_cons]
    exact congrArg _ (failed.trans finished)

/-- After its second round trip SINGLE_SHOT is in STOPPED, and answers with the record of the words it read. -/
theorem runLines_linesAfterSecond {s : State} {k t : Nat} (hq : s.undisturbed (k + 2 + finishSteps s.params))
    (hf : s.failed = none) : runLines (linesAfterSecond s.params) (s.during .singleShot k t) =
      (s.inSession .stopped).answered .singleShot (k + 2 + finishSteps s.params)
        (s.respondTime (k + 2) (t + (s.drawAt k).delay + (s.drawAt (k + 1)).delay) s.readyAt)
        (statusOk :: measData (ruleOf s.params.variant) s.words) := by
  have stops := runLines_during (v := s.inSession .stopped) (l := line (.setSession .stopped))
    (rest := line (.compute measurementData) :: finishOk s.params computedData) (hq k (by omega))
    (perform_setSession_during s .singleShot k t .stopped _) hf
  have computes := runLines_during (s := s.inSession .stopped) (l := line (.compute measurementData))
    (rest := finishOk s.params computedData) (hq (k + 1) (by omega))
    (perform_compute_during _ .singleShot (k + 1) (t + (s.drawAt k).delay) _ rfl) hf
  have responds := runLines_finishOk (f := computedData) (t := t + (s.drawAt k).delay + (s.drawAt (k + 1)).delay)
    (s := (s.inSession .stopped).withData (measData (ruleOf s.params.variant) s.words)) .singleShot hq hf fun _ _ => rfl
  exact stops.trans (computes.trans responds)

/-- Settles O28: both round trips succeed, and the record is made in STOPPED. -/
theorem singleShotCompletes : Obligations.SingleShotCompletes := by
  intro s w v ws hs hw hv ht hq ok ok' okRead n good d1 w2 d2 r
  have words : responseWords s.params.variant .readMeasurement = n := responseWords_readMeasurement _
  have read := runLines_transactRead_of_good (s := s.sentSecond (s.frame w []) (s.frame v [])) (k := 8)
    (t := s.secondWriteTime) (m := n) (n := 1) (onError := secondErrorPart s.params) .singleShot
    (linesAfterSecond s.params) (fun j hj => hq j (by omega)) rfl okRead good
  have finished := runLines_linesAfterSecond (s := (s.readSecond (s.frame w []) (s.frame v []) n).withWords ws)
    (t := s.secondReadTime + (s.drawAt 10).delay) (k := 11) hq rfl
  rw [exec_singleShot_of_sentSecond hs hw hv words ht (fun j hj => hq j (by omega)) ok ok', List.append_cons,
    List.append_cons]
  simp only [State.answered, hs]
  exact congrArg _ (read.trans finished)

end Sys2Proof.Machine
end

section
/-! The settling table (43_session.md R133) and the SESSION transitions (R140). A silent line neither writes SESSION nor
answers a result, so an operation's SESSION is decided by the lines after its silent ones. -/

namespace Sys2Proof.Machine

/-- Settles O57: the named delays by the definition's own cases, T_CMD_MS for each command of the last row. -/
theorem settlingTable : Obligations.SettlingTable := by
  intro p
  refine ⟨rfl, rfl, rfl, rfl, ?_⟩
  simp only [List.forall_mem_cons, settling, List.not_mem_nil, false_implies, implies_true, and_self]

/-! ### Silent lines -/

/-- A micro-step that neither writes SESSION nor answers a result. -/
def Act.isSilent : Act → Bool
  | .setSession _ => false
  | .respond _ => false
  | _ => true

/-- Neither a line nor its error part writes SESSION or answers a result. -/
def silentLines (lines : List Line) : Prop := ∀ l ∈ lines, ∀ a ∈ l.act :: l.onError, a.isSilent = true

/-- An error frame is not an OK without data. -/
theorem raise_resp_ne (u : State) (f : Failure) : (u.raise f).resp ≠ [statusOk] := by
  simp [State.raise, Failure.frame]

/-- A silent micro-step leaves SESSION, and PHASE too unless it turns the operation away or raises an error. -/
theorem perform_silent {a : Act} (ha : a.isSilent = true) (d : Draw) (u : State) :
    (perform a d u).session = u.session ∧
      ((perform a d u).phase = u.phase ∨ (perform a d u).resp ≠ [statusOk]) := by
  cases a with
  | setSession x => cases ha
  | respond f => cases ha
  | accept needs allowed e =>
    rcases acceptChecks_cases needs allowed e u with
      ⟨_, h⟩ | ⟨_, ⟨_, ⟨_, h⟩ | ⟨_, h⟩⟩ | ⟨_, ⟨_, _, h⟩ | ⟨_, h⟩⟩⟩ <;> simp only [perform, h]
    · exact ⟨rfl, .inr (raise_resp_ne u _)⟩
    · exact ⟨rfl, .inr (by simp [statusAlreadyRunning, statusOk])⟩
    · exact ⟨rfl, .inr (raise_resp_ne u _)⟩
    · exact ⟨rfl, .inr (raise_resp_ne u _)⟩
    · exact ⟨rfl, .inl rfl⟩
  | loadFrame c p =>
    rcases loadFrame_cases c p u with ⟨_, _, h⟩ | ⟨_, h⟩
    · simp [perform, h]
    · rw [perform, h]
      exact ⟨rfl, .inr (raise_resp_ne u _)⟩
  | raise =>
    cases h : u.failed with
    | none => simp [perform, h]
    | some f =>
      simp only [perform, h]
      exact ⟨rfl, .inr (raise_resp_ne u _)⟩
  | write c t => rcases busWrite_cases c t d u with ⟨_, h⟩ | ⟨_, h⟩ <;> simp [perform, h]
  | read n t => rcases busRead_cases n t d u with ⟨_, h⟩ | ⟨_, h⟩ <;> simp [perform, h]
  | decodeBuffer n t => rcases decodeInto_cases u.rxbuf n t u with ⟨_, _, h⟩ | ⟨_, h⟩ <;> simp [perform, h]
  | decodeOperand raw k => rcases decodeInto_cases raw k 0 u with ⟨_, _, h⟩ | ⟨_, h⟩ <;> simp [perform, h]
  | acceptPure => exact ⟨rfl, .inl rfl⟩
  | waitReady => exact ⟨rfl, .inl rfl⟩
  | compute f => exact ⟨rfl, .inl rfl⟩

/-- u has SESSION x, and if its operation has ended, then not with an OK that has no data. -/
def State.unanswered (x : Session) (u : State) : Prop := u.session = x ∧ (u.phase = .idle → u.resp ≠ [statusOk])

/-- A silent micro-step that no RESET cuts. -/
theorem runAct_silent {a : Act} (ha : a.isSilent = true) {u : State} (hu : u.phase = .exec) :
    (runAct a u).phase = .idle ∧ (runAct a u).resp = [] ∨ (runAct a u).unanswered u.session := by
  rcases runAct_cases a u with ⟨_, h⟩ | ⟨_, h⟩ <;> rw [h]
  · exact .inl ⟨rfl, rfl⟩
  · obtain ⟨session, goesOn | refused⟩ := perform_silent ha (u.drawAt 0) u.tick
    · exact .inr ⟨session, fun idle => by simp [goesOn, hu] at idle⟩
    · exact .inr ⟨session, fun _ => refused⟩

/-- An error part of silent micro-steps is cut by RESET, or it answers no result. -/
theorem runActs_silent {acts : List Act} (ha : ∀ a ∈ acts, a.isSilent = true) {u : State} (hu : u.phase = .exec) :
    (runActs acts u).resp = [] ∨ (runActs acts u).unanswered u.session := by
  induction acts generalizing u with
  | nil => exact .inr ⟨rfl, fun idle => by simp [runActs, hu] at idle⟩
  | cons a rest ih =>
    obtain ⟨first, others⟩ := List.forall_mem_cons.mp ha
    rw [runActs_cons]
    rcases runAct_silent first hu with ⟨idle, cut⟩ | kept
    · exact .inl (by rwa [afterAct_of_idle _ idle])
    · rcases afterAct_cases (runActs rest) (runAct a u) with ⟨_, h⟩ | ⟨hp, h⟩ <;> rw [h]
      · exact .inr kept
      · exact kept.1 ▸ ih others hp

/-- Silent lines are cut by RESET, or end the operation without a result, or leave SESSION to the lines after them. -/
theorem runLines_silent_append {pre : List Line} (hs : silentLines pre) (post : List Line) {u : State}
    (hu : u.phase = .exec) (hf : u.failed = none) :
    (runLines (pre ++ post) u).resp = [] ∨ (runLines (pre ++ post) u).unanswered u.session ∨
      ∃ v, v.phase = .exec ∧ v.failed = none ∧ v.session = u.session ∧ runLines (pre ++ post) u = runLines post v := by
  induction pre generalizing u with
  | nil => exact .inr (.inr ⟨u, hu, hf, rfl, rfl⟩)
  | cons l rest ih =>
    obtain ⟨first, others⟩ := List.forall_mem_cons.mp hs
    obtain ⟨act, onError⟩ := List.forall_mem_cons.mp first
    rw [List.cons_append, runLines_cons]
    rcases runAct_silent act hu with ⟨idle, cut⟩ | kept
    · exact .inl (by rwa [afterLine_of_idle _ _ idle])
    · rcases afterLine_cases l.onError (runLines (rest ++ post)) (runAct l.act u) with
        ⟨_, h⟩ | ⟨hp, _, h⟩ | ⟨hp, hn, h⟩ <;> rw [h]
      · exact .inr (.inl kept)
      · exact (kept.1 ▸ runActs_silent onError hp).imp_right .inl
      · exact kept.1 ▸ ih others hp hn

/-! ### Lines that answer -/

/-- The lines answer a result of f in the SESSION they find, or are cut by RESET. -/
def linesAnswer (f : State → List Byte) (lines : List Line) : Prop := ∀ u, u.phase = .exec → u.failed = none →
  (runLines lines u).resp = [] ∨
    (runLines lines u).session = u.session ∧ ∃ v, (runLines lines u).resp = statusOk :: f v

theorem linesAnswer_respond (f : State → List Byte) : linesAnswer f [line (.respond f)] := by
  intro u _ _
  cases h : (u.drawAt 0).reset with
  | true => exact .inl (runLines_resp_of_reset _ _ h)
  | false =>
    rw [runLines_cons_respond h]
    exact .inr ⟨rfl, u.tick, rfl⟩

theorem linesAnswer_finishOk (p : Params) (f : State → List Byte) : linesAnswer f (finishOk p f) := by
  rcases finishActs_cases p with h | h <;> rw [finishOk, h]
  · intro u hu hf
    cases hr : (u.drawAt 0).reset with
    | true => exact .inl (runLines_resp_of_reset _ _ hr)
    | false =>
      have waited : runLines (line .waitReady :: [line (.respond f)]) u =
          runLines [line (.respond f)] (waitReady u.tick) := runLines_cons_of_ok hr rfl hu hf
      exact waited ▸ linesAnswer_respond f (waitReady u.tick) hu hf
  · exact linesAnswer_respond f

/-- An operation whose lines are silent until they answer leaves SESSION as it was. -/
theorem session_of_silent_answer {pre post : List Line} {f : State → List Byte} {u : State} (hs : silentLines pre)
    (ha : linesAnswer f post) (hu : u.phase = .exec) (hf : u.failed = none)
    (hr : (runLines (pre ++ post) u).resp ≠ []) :
    (runLines (pre ++ post) u).session = u.session := by
  rcases runLines_silent_append hs post hu hf with cut | kept | ⟨v, hv, hn, same, e⟩
  · exact absurd cut hr
  · exact kept.1
  · rw [e] at hr ⊢
    exact ((ha v hv hn).resolve_left hr).1.trans same

/-- An operation that enters SESSION y after its silent lines does so exactly where it answers OK. -/
theorem session_of_silent_setSession {pre : List Line} {p : Params} {y : Session} {u : State} (hs : silentLines pre)
    (hu : u.phase = .exec) (hf : u.failed = none)
    (hr : (runLines (pre ++ line (.setSession y) :: finishOk p noData) u).resp ≠ [])
    (ended : (runLines (pre ++ line (.setSession y) :: finishOk p noData) u).phase = .idle) :
    (runLines (pre ++ line (.setSession y) :: finishOk p noData) u).session =
      if (runLines (pre ++ line (.setSession y) :: finishOk p noData) u).resp = [statusOk] then y else u.session := by
  rcases runLines_silent_append hs (line (.setSession y) :: finishOk p noData) hu hf with
    cut | ⟨kept, refused⟩ | ⟨v, hv, hn, -, e⟩
  · exact absurd cut hr
  · rw [if_neg (refused ended), kept]
  · rw [e] at hr ⊢
    cases quiet : (v.drawAt 0).reset with
    | true => exact absurd (runLines_resp_of_reset _ _ quiet) hr
    | false =>
      have entered : runLines (line (.setSession y) :: finishOk p noData) v =
          runLines (finishOk p noData) (v.tick.inSession y).advance := runLines_cons_of_ok quiet rfl hv hn
      rw [entered] at hr ⊢
      obtain ⟨session, _, ok⟩ := (linesAnswer_finishOk p noData (v.tick.inSession y).advance hv hn).resolve_left hr
      rw [ok, session]
      exact (if_pos rfl).symm

/-! ### The silent lines of the operations -/

theorem silentLines_append {a b : List Line} (ha : silentLines a) (hb : silentLines b) : silentLines (a ++ b) :=
  List.forall_mem_append.mpr ⟨ha, hb⟩

theorem silentLines_cons {l : Line} {rest : List Line} (hl : ∀ a ∈ l.act :: l.onError, a.isSilent = true)
    (hr : silentLines rest) : silentLines (l :: rest) :=
  List.forall_mem_cons.mpr ⟨hl, hr⟩

theorem silent_line {a : Act} (h : a.isSilent = true) : ∀ b ∈ (line a).act :: (line a).onError, b.isSilent = true := by
  simpa [line] using h

theorem silent_finishError (p : Params) : ∀ a ∈ finishError p, a.isSilent = true := by
  rcases finishActs_cases p with h | h <;> simp [finishError, h, Act.isSilent]

/-- A round trip is silent where its error part is. -/
theorem silent_transact (p : Params) (c : CmdName) (payload : List Byte) (n : Nat) {onError : List Act}
    (he : ∀ a ∈ onError, a.isSilent = true) : silentLines (transact p c payload n onError) := by
  rw [transact_eq_append]
  refine silentLines_append (silentLines_cons (silent_line rfl) (silentLines_cons (silent_line rfl)
    (silentLines_cons (List.forall_mem_cons.mpr ⟨rfl, he⟩) nofun))) ?_
  unfold replyLines
  split
  · exact nofun
  · exact silentLines_cons (silent_line rfl) (silentLines_cons (List.forall_mem_cons.mpr ⟨rfl, he⟩)
      (silentLines_cons (List.forall_mem_cons.mpr ⟨rfl, he⟩) nofun))

/-- A command operation is silent up to the end of its first round trip. -/
theorem silent_before_linesAfterFirst {i : Instr} {c : CmdName} {payload : List Byte}
    (h : firstCommand i = some (c, payload)) (p : Params) :
    ∃ pre, silentLines pre ∧ ruleOfInstr i p = pre ++ linesAfterFirst i p := by
  obtain ⟨allowed, e, rule, -⟩ := ruleOfInstr_of_firstCommand h p
  exact ⟨_, silentLines_cons (silent_line rfl) (silent_transact p c payload 0 (silent_finishError p)), rule⟩

/-- The SESSION that an operation enters where it answers OK, if it enters one (R140). -/
def sessionEntered : Instr → Option Session
  | .startPeriodic _ => some .periodicRunning
  | .stopPeriodic => some .stopped
  | .factoryReset => some .stopped
  | _ => none

/-- An operation that enters no SESSION is silent until it answers, SINGLE_SHOT apart. -/
theorem ruleOfInstr_silent_answer {i : Instr} (hi : sessionEntered i = none) (hs : i ≠ .singleShot) (p : Params) :
    ∃ pre post f, silentLines pre ∧ linesAnswer f post ∧ ruleOfInstr i p = pre ++ post := by
  have first {c : CmdName} {payload : List Byte} (h : firstCommand i = some (c, payload)) :=
    silent_before_linesAfterFirst h p
  cases i with
  | startPeriodic | stopPeriodic | factoryReset => cases hi
  | singleShot => exact absurd rfl hs
  | crcCompute | crcVerify | frameEncode | measDecode | status =>
    exact ⟨[line .acceptPure, line (.compute _)], _, _, by simp [silentLines, line, Act.isSilent],
      linesAnswer_respond _, rfl⟩
  | frameDecode d k raw =>
    exact ⟨[line .acceptPure, { act := .decodeOperand raw k.toNat, onError := [.raise] }], _, _,
      by simp [silentLines, line, Act.isSilent], linesAnswer_respond _, rfl⟩
  | setAltitude | setTempOffset | setAutoCal | getAltitude | getTempOffset =>
    obtain ⟨pre, silent, rule⟩ := first rfl
    exact ⟨pre, _, _, silent, linesAnswer_finishOk p _, rule⟩
  | dataReady | readMeasurement =>
    obtain ⟨pre, silent, rule⟩ := first rfl
    exact ⟨pre ++ [line (.compute _)], _, _, silentLines_append silent (silentLines_cons (silent_line rfl) nofun),
      linesAnswer_finishOk p _, by rw [List.append_assoc]; exact rule⟩

/-- An operation that enters a SESSION does so after its only round trip. -/
theorem ruleOfInstr_silent_setSession {i : Instr} {y : Session} (hi : sessionEntered i = some y) (p : Params) :
    ∃ pre, silentLines pre ∧ ruleOfInstr i p = pre ++ line (.setSession y) :: finishOk p noData := by
  cases i <;> cases hi <;> exact silent_before_linesAfterFirst rfl p

/-! ### SINGLE_SHOT -/

/-- Outside STOPPED it is turned away at its ACCEPT. -/
theorem singleShot_session_of_not_stopped {s : State} (hs : s.session ≠ .stopped) :
    (runLines (ruleSingleShot s.params) (s.begin .singleShot)).resp = [] ∨
      (runLines (ruleSingleShot s.params) (s.begin .singleShot)).session = s.session := by
  rw [ruleSingleShot, runLines_cons]
  rcases runAct_cases (.accept [.singleShot, .readMeasurement] [.stopped] .wrongState) (s.begin .singleShot) with
    ⟨_, h⟩ | ⟨_, h⟩ <;> rw [line, h]
  · exact .inl (by rw [afterLine_of_idle _ _ rfl]; rfl)
  · rcases acceptChecks_cases [.singleShot, .readMeasurement] [.stopped] .wrongState (s.begin .singleShot).tick with
      ⟨_, e⟩ | ⟨_, ⟨_, ⟨_, e⟩ | ⟨_, e⟩⟩ | ⟨stopped, _⟩⟩
    · exact .inr (by rw [perform, e, afterLine_of_idle _ _ rfl]; rfl)
    · exact .inr (by rw [perform, e, afterLine_of_idle _ _ rfl]; rfl)
    · exact .inr (by rw [perform, e, afterLine_of_idle _ _ rfl]; rfl)
    · exact absurd (List.mem_singleton.mp stopped) hs

/-- A micro-step leads to PERIODIC_RUNNING only where it writes that SESSION. -/
theorem runAct_session_ne_running {a : Act} {u : State} (ha : a ≠ .setSession .periodicRunning)
    (hu : u.session ≠ .periodicRunning) : (runAct a u).session ≠ .periodicRunning := by
  rcases runAct_cases a u with ⟨_, h⟩ | ⟨_, h⟩ <;> rw [h]
  · simp
  · cases hs : a.isSilent with
    | true =>
      rw [(perform_silent hs _ u.tick).1]
      exact hu
    | false =>
      cases a with
      | setSession x => exact fun hx => ha (congrArg _ hx)
      | respond f => exact hu
      | _ => cases hs

/-- SINGLE_SHOT writes no PERIODIC_RUNNING. -/
theorem ruleSingleShot_writes (p : Params) : ∀ l ∈ ruleSingleShot p, ∀ a ∈ l.act :: l.onError,
    a ≠ .setSession .periodicRunning := by
  obtain ⟨_, lines⟩ := ruleSingleShot_eq p
  rcases finishActs_cases p with h | h <;> simp [lines, secondErrorPart, finishError, finishOk, line, h]

/-- SINGLE_SHOT ends in STOPPED from STOPPED: no micro-step of it leads to PERIODIC_RUNNING, and a host never observes
SINGLE_SHOT_PENDING (10_state.md R24). -/
theorem singleShot_session_of_stopped {s t : State} (hs : s.session = .stopped) (h : exec .singleShot s = .next t) :
    t.session = .stopped := by
  obtain ⟨_, ended⟩ := exec_ended h
  have notPending : t.session ≠ .singleShotPending := ended.session (by simp [hs])
  rw [exec_eq_runLines] at h
  cases h
  have notRunning := runLines_induction (P := fun u => u.session ≠ .periodicRunning) (ruleSingleShot s.params)
    (s.begin .singleShot) (fun l hl a ha u hu => runAct_session_ne_running (ruleSingleShot_writes _ l hl a ha) hu)
    (by simp [hs])
  cases x : (runLines (ruleOfInstr .singleShot s.params) (s.begin .singleShot)).session with
  | stopped => rfl
  | periodicRunning => exact absurd x notRunning
  | singleShotPending => exact absurd x notPending

/-! ### The transitions -/

section
variable {i : Instr} {s t : State}

/-- Where no SESSION is entered, SESSION stays. -/
theorem session_of_none_entered (hi : sessionEntered i = none) (hs : s.session ≠ .singleShotPending)
    (h : exec i s = .next t) (hr : t.resp ≠ []) : t.session = s.session := by
  by_cases shot : i = .singleShot
  · subst shot
    cases x : s.session with
    | stopped => exact singleShot_session_of_stopped x h
    | singleShotPending => exact absurd x hs
    | periodicRunning =>
      rw [exec_eq_runLines] at h
      cases h
      exact x ▸ (singleShot_session_of_not_stopped (by simp [x])).resolve_left hr
  · obtain ⟨pre, post, f, silent, answer, rule⟩ := ruleOfInstr_silent_answer hi shot s.params
    rw [exec_eq_runLines, rule] at h
    cases h
    exact session_of_silent_answer silent answer rfl rfl hr

/-- Where a SESSION is entered, this is exactly where the operation answers OK. -/
theorem session_of_entered {y : Session} (hi : sessionEntered i = some y) (h : exec i s = .next t) (hr : t.resp ≠ []) :
    t.session = if t.resp = [0x00] then y else s.session := by
  obtain ⟨_, ended⟩ := exec_ended h
  obtain ⟨pre, silent, rule⟩ := ruleOfInstr_silent_setSession hi s.params
  rw [exec_eq_runLines, rule] at h
  cases h
  exact session_of_silent_setSession silent rfl rfl hr ended.phase

end

/-- Settles O54: three operations enter a SESSION, the others none. -/
theorem sessionTransitions : Obligations.SessionTransitions := by
  intro i s t hs h hr
  cases i with
  | startPeriodic payload => exact session_of_entered rfl h hr
  | stopPeriodic => exact session_of_entered rfl h hr
  | factoryReset => exact session_of_entered rfl h hr
  | _ => exact session_of_none_entered rfl hs h hr

end Sys2Proof.Machine
end

section
/-! The configuration operations and STATUS (44_config_status.md R160 to R165). A setter's rule ends with `Finish` right
after its write, a getter's right after its read; neither writes SESSION or a construction parameter. -/

namespace Sys2Proof.Machine

/-! ### Setters (R160, R162, R164) -/

section
variable {s : State} {i : Instr} {c : CmdName} {w : Word}

/-- A command without a response, after which the operation answers OK with no result. -/
theorem exec_of_sent_finish {payload : List Byte} (hc : firstCommand i = some (c, payload))
    (hr : responseWords s.params.variant c = 0) (hn : needsOf i = [c])
    (hl : linesAfterFirst i s.params = finishOk s.params noData) (hw : commandWord s.params c = some w)
    (ha : sessionAllows i s.session = true) (ht : s.onTime) (hq : s.undisturbed (4 + finishSteps s.params))
    (ok : (s.drawAt 3).ok = true) :
    exec i s = .next
      { s.answered i (4 + finishSteps s.params)
          (s.respondTime 4 s.writeTime (s.writeTime + settling s.params c)) [statusOk] with
        readyAt := s.writeTime + settling s.params c
        txbuf := s.frame w payload
        txWritten := true
        busLog := s.busLog ++ [s.writeEvent (s.frame w payload) s.writeTime s.readyAt .ok] } := by
  rw [exec_of_sent_no_read hc hr hw (State.supports_of_needsOf hn hw) ha ht (fun j hj => hq j (by omega)) ok, hl]
  exact congrArg _ (runLines_finishOk (s := s.sentFirst c (s.frame w payload)) (data := []) i hq rfl fun _ _ => rfl)

/-! ### Getters (R161, R163) -/

/-- A response word, after which the operation answers OK with that word as it was read. -/
theorem exec_of_read_finish {x : Word} (hc : readCommand i = some c)
    (hl : linesAfterFirst i s.params = finishOk s.params wordData) (hr : responseWords s.params.variant c = 1)
    (hw : commandWord s.params c = some w) (ha : sessionAllows i s.session = true) (ht : s.onTime)
    (hq : s.undisturbed (7 + finishSteps s.params)) (ok : (s.drawAt 3).ok = true) (okRead : (s.drawAt 5).ok = true)
    (good : decodeWords (s.delivered 5 3) 1 = some [x]) :
    exec i s = .next
      { s.answered i (7 + finishSteps s.params)
          (s.respondTime 7 (s.firstReadTime c + (s.drawAt 6).delay) (s.writeTime + settling s.params c))
          (statusOk :: be16 x) with
        readyAt := s.writeTime + settling s.params c
        txbuf := s.frame w []
        txWritten := true
        rxbuf := s.delivered 5 3
        rxWritten := true
        busLog := s.busLog ++ [s.writeEvent (s.frame w []) s.writeTime s.readyAt .ok,
          s.readEvent 3 (s.delivered 5 3) (s.firstReadTime c) (s.writeTime + settling s.params c) .ok] } := by
  have finished := runLines_finishOk (f := wordData) (data := be16 x)
    (s := (s.readFirst c (s.frame w [])).withWords [x]) (t := s.firstReadTime c + (s.drawAt 6).delay) i hq rfl
    fun _ _ => rfl
  rw [exec_of_read hc hw ha ht (fun j hj => hq j (by omega)) ok okRead (by rw [hr]; exact good), hl, List.append_cons]
  refine (congrArg _ finished).trans ?_
  simp only [State.readFirst, hr]
  rfl

end

/-- Settles O30: every SESSION allows a setter, and its one round trip is a write of the raw word. -/
theorem settersComplete : Obligations.SettersComplete := by
  rintro s i c x w (⟨rfl, rfl⟩ | ⟨rfl, rfl⟩ | ⟨rfl, rfl⟩) hw ht hq ok
  · exact exec_of_sent_finish (i := .setAltitude x) (c := .setAltitude) rfl rfl rfl rfl hw rfl ht hq ok
  · exact exec_of_sent_finish (i := .setTempOffset x) (c := .setTempOffset) rfl rfl rfl rfl hw rfl ht hq ok
  · exact exec_of_sent_finish (i := .setAutoCal x) (c := .setAutoCal) rfl rfl rfl rfl hw rfl ht hq ok

/-- Settles O31: every SESSION allows a getter, and its result is the one word that it reads. -/
theorem gettersComplete : Obligations.GettersComplete := by
  rintro s i c w x (⟨rfl, rfl⟩ | ⟨rfl, rfl⟩) hw ht hq ok okRead good d r
  · exact exec_of_read_finish (i := .getAltitude) (c := .getAltitude) rfl rfl rfl hw rfl ht hq ok okRead good
  · exact exec_of_read_finish (i := .getTempOffset) (c := .getTempOffset) rfl rfl rfl hw rfl ht hq ok okRead good

/-! ### STATUS (R165) -/

/-- Settles O21: STATUS has a pure operation's micro-steps, and its ACCEPT leaves all that `statusData` reads as it
was. -/
theorem statusCompletes : Obligations.StatusCompletes := fun _ hq =>
  exec_of_pureRule (i := .status) (f := statusData) rfl hq

end Sys2Proof.Machine
end

section
/-! The exceptions that no bus access makes (60_exceptions.md R173 to R179): a request refused at its ACCEPT, an
operation that ACCEPT's checks end, and, where ACCEPT does not check the deadline, the hold of every bus access. -/

namespace Sys2Proof.Machine

/-! ### Requests -/

/-- Settles O6: an illegal opcode and a wrong length are the two ways in which a request does not decode. -/
theorem badRequestsRaise : Obligations.BadRequestsRaise := by
  intro s op rest more hp hr hi hq
  refine ⟨fun ho => step_refuses hp hr hi (decodeRequest_of_illegal ho rest) hq, fun o ho hl => ?_⟩
  have malformed := (lengthDecidesRequests.1 op rest o ho).2.mpr hl
  exact step_refuses hp hr hi malformed hq

/-- Settles O47: what an idle block does, whatever its inputs and its pending response, is a next state. -/
theorem idleNeverStops : Obligations.IdleNeverStops := fun _ => step_idle_answers

/-! ### ACCEPT of a session or configuration operation (43_session.md R130, 60_exceptions.md R177) -/

/-- An operation that needs a command sends one first. -/
theorem firstCommand_of_mem_needsOf {i : Instr} {c : CmdName} (h : c ∈ needsOf i) : firstCommand i ≠ none := by
  cases i with
  | crcCompute | crcVerify | frameEncode | frameDecode | measDecode | status => cases h
  | _ => exact nofun

/-- An operation that some SESSION does not allow sends a command. -/
theorem firstCommand_of_sessionAllows {i : Instr} {x : Session} (h : sessionAllows i x = false) :
    firstCommand i ≠ none := by
  cases i with
  | startPeriodic | dataReady | readMeasurement | singleShot => exact nofun
  | _ => cases h

/-- The first line of an operation that sends a command is the ACCEPT of R130 for its own `needs` and `state_ok`, and
START_PERIODIC alone reports where it is not allowed. -/
theorem ruleOfInstr_accept {i : Instr} (h : firstCommand i ≠ none) (p : Params) : ∃ allowed e rest,
    ruleOfInstr i p = line (.accept (needsOf i) allowed e) :: rest ∧ (∀ x, x ∈ allowed ↔ sessionAllows i x = true) ∧
      (e = .alreadyRunning ↔ ∃ payload, i = .startPeriodic payload) := by
  cases i with
  | startPeriodic payload => exact ⟨[.stopped], .alreadyRunning, _, rfl, by simp [sessionAllows], by simp⟩
  | dataReady | readMeasurement => exact ⟨[.periodicRunning], .wrongState, _, rfl, by simp [sessionAllows], by simp⟩
  | singleShot => exact ⟨[.stopped], .wrongState, _, rfl, by simp [sessionAllows], by simp⟩
  | stopPeriodic | factoryReset | setAltitude | getAltitude | setTempOffset | getTempOffset | setAutoCal =>
    exact ⟨anySession, .wrongState, _, rfl, fun x => by cases x <;> simp [anySession, sessionAllows], by simp⟩
  | crcCompute | crcVerify | frameEncode | frameDecode | measDecode | status => exact absurd rfl h

/-- ACCEPT ends operation i begun at s with `frame`, and nothing else of s changes. -/
def State.turnsAway (s : State) (i : Instr) (frame : List Byte) : Prop :=
  ∃ t, exec i s = .next t ∧ s.respondsOnly t i frame

/-- An ACCEPT that answers ends the operation with that answer. -/
theorem State.turnsAway_of_accept {s : State} {i : Instr} {a : Act} {rest : List Line} {frame : List Byte}
    (rule : ruleOfInstr i s.params = line a :: rest) (hq : (s.drawAt 0).reset = false)
    (answer : perform a (s.drawAt 0) (s.begin i).tick = (s.begin i).tick.respondWith frame) :
    s.turnsAway i frame := by
  have quiet : ((s.begin i).drawAt 0).reset = false := hq
  refine ⟨(s.begin i).tick.respondWith frame, ?_, Nat.le_add_right _ _, rfl⟩
  rw [exec_eq_runLines, rule, runLines_cons, line, runAct_of_quiet quiet]
  exact congrArg _ ((congrArg _ answer).trans (afterLine_of_idle _ _ rfl))

/-- Everything that an undisturbed ACCEPT of an operation that sends a command can do, in the order of R177. -/
inductive AcceptOutcome (i : Instr) (s : State) : Prop
  | unsupported (codes : ¬ s.supports i) (away : s.turnsAway i [0x82, 0x02])
  | alreadyRunning (codes : s.supports i) (session : sessionAllows i s.session = false)
      (start : ∃ payload, i = .startPeriodic payload) (away : s.turnsAway i [0x01])
  | wrongState (codes : s.supports i) (session : sessionAllows i s.session = false)
      (other : ∀ payload, i ≠ .startPeriodic payload) (away : s.turnsAway i [0x82, 0x01])
  | tooEarly (codes : s.supports i) (session : sessionAllows i s.session = true)
      (report : s.params.policy = .report) (early : s.clock 1 < s.readyAt) (away : s.turnsAway i [0x83, 0x00])
  | passes (codes : s.supports i) (session : sessionAllows i s.session = true) (due : s.onTime)

/-- Each outcome of the ACCEPT checks, read at the operation in execution. -/
theorem acceptOutcome {i : Instr} {s : State} (hc : firstCommand i ≠ none) (hq : s.undisturbed 1) :
    AcceptOutcome i s := by
  obtain ⟨allowed, e, rest, rule, sessions, starts⟩ := ruleOfInstr_accept hc s.params
  have away {frame : List Byte} (h : acceptChecks (needsOf i) allowed e (s.begin i).tick =
      (s.begin i).tick.respondWith frame) : s.turnsAway i frame := State.turnsAway_of_accept rule (hq 0 Nat.one_pos) h
  have notAllowed (h : s.session ∉ allowed) : sessionAllows i s.session = false :=
    Bool.eq_false_iff.mpr (mt (sessions _).mpr h)
  rcases acceptChecks_cases (needsOf i) allowed e (s.begin i).tick with
    ⟨⟨c, hm, absent⟩, answer⟩ | ⟨codes, ⟨session, ⟨he, answer⟩ | ⟨he, answer⟩⟩ |
      ⟨session, ⟨report, early, answer⟩ | ⟨due, _⟩⟩⟩
  · exact .unsupported (fun codes => codes c hm absent) (away answer)
  · exact .alreadyRunning codes (notAllowed session) (starts.mp he) (away answer)
  · have other : ∀ payload, i ≠ .startPeriodic payload := fun payload hi => by
      rw [starts.mpr ⟨payload, hi⟩] at he
      cases he
    exact .wrongState codes (notAllowed session) other (away answer)
  · exact .tooEarly codes ((sessions _).mp session) report early (away answer)
  · exact .passes codes ((sessions _).mp session) due

/-- Settles O32: with its command coded, STOPPED is the one SESSION in which START_PERIODIC does not report. -/
theorem alreadyRunningReported : Obligations.AlreadyRunningReported := by
  intro s payload hs codes hq
  have notAllowed : sessionAllows (.startPeriodic payload) s.session = false := by simpa [sessionAllows] using hs
  cases acceptOutcome (i := .startPeriodic payload) nofun hq with
  | unsupported absent => exact absurd codes absent
  | alreadyRunning _ _ _ away => exact away
  | wrongState _ _ other => exact absurd rfl (other payload)
  | tooEarly _ session | passes _ session => simp [notAllowed] at session

/-- Settles O33: the first two checks of ACCEPT, the second where the first passes. -/
theorem protocolStateErrors : Obligations.ProtocolStateErrors := by
  refine ⟨fun s i absent hq => ?_, fun s i codes notAllowed other hq => ?_⟩
  · obtain ⟨c, needed⟩ : ∃ c, c ∈ needsOf i := by
      by_contra none
      exact absent fun c hc => absurd ⟨c, hc⟩ none
    cases acceptOutcome (firstCommand_of_mem_needsOf needed) hq with
    | unsupported _ away => exact away
    | alreadyRunning codes | wrongState codes | tooEarly codes | passes codes => exact absurd codes absent
  · cases acceptOutcome (firstCommand_of_sessionAllows notAllowed) hq with
    | unsupported absent => exact absurd codes absent
    | alreadyRunning _ _ start => exact absurd start (not_exists.mpr other)
    | wrongState _ _ _ away => exact away
    | tooEarly _ session | passes _ session => simp [notAllowed] at session

/-! ### TIMING_VIOLATION is REPORT's alone (60_exceptions.md R174) -/

/-- The code 0x83 is TIMING_VIOLATION's (R84). -/
theorem ErrorKind.code_eq_iff (k : ErrorKind) : k.code = 0x83 ↔ k = .timingViolation := by
  cases k <;> decide

/-- A state under a policy that does not report, with neither a TIMING_VIOLATION to raise nor one answered. -/
structure State.Patient (u : State) : Prop where
  policy : u.params.policy ≠ .report
  failed : ∀ f, u.failed = some f → f.failure.kind ≠ .timingViolation
  answer : u.phase = .idle → u.resp.head? ≠ some 0x83

section
variable {u : State}

theorem State.Patient.tick (h : u.Patient) : u.tick.Patient := { h with }

theorem State.Patient.advance (h : u.Patient) : u.advance.Patient := { h with }

theorem State.Patient.onReset (h : u.Patient) : u.onReset.Patient :=
  { h with
    failed := nofun
    answer := fun _ => by simp }

theorem State.Patient.respondWith (h : u.Patient) {frame : List Byte} (hf : frame.head? ≠ some 0x83) :
    (u.respondWith frame).Patient :=
  { h with
    failed := nofun
    answer := fun _ => hf }

theorem State.Patient.raise (h : u.Patient) {f : Failure} (hf : f.kind ≠ .timingViolation) : (u.raise f).Patient :=
  h.respondWith fun answered => hf ((ErrorKind.code_eq_iff _).mp (Option.some.inj answered))

theorem State.Patient.failWith (h : u.Patient) {f : Failure} (hf : f.kind ≠ .timingViolation) :
    (u.failWith f).Patient :=
  { h with
    failed := fun g hg => by
      obtain rfl := Option.some.inj hg
      exact hf }

theorem State.Patient.logAccess (h : u.Patient) (k : BusKind) (n : Nat) (bytes : List Byte) (e : BusEnd) :
    (u.logAccess k n bytes e).Patient := { h with }

theorem State.Patient.decodeInto (h : u.Patient) (raw : List Byte) (k t : Nat) : (decodeInto raw k t u).Patient := by
  rcases decodeInto_cases raw k t u with ⟨_, _, e⟩ | ⟨_, e⟩ <;> rw [e]
  · exact { h with }
  · exact h.failWith nofun

/-- No effect of a micro-step answers a TIMING_VIOLATION where ACCEPT does not raise one. -/
theorem State.Patient.perform (h : u.Patient) (a : Act) (d : Draw) : (perform a d u).Patient := by
  cases a with
  | accept needs allowed e =>
    rcases acceptChecks_cases needs allowed e u with
      ⟨_, he⟩ | ⟨_, ⟨_, ⟨_, he⟩ | ⟨_, he⟩⟩ | ⟨_, ⟨report, _⟩ | ⟨_, he⟩⟩⟩
    · simpa only [Machine.perform, he] using h.raise (f := unsupported) nofun
    · simpa only [Machine.perform, he] using h.respondWith (frame := [statusAlreadyRunning]) (by decide)
    · simpa only [Machine.perform, he] using h.raise (f := wrongState) nofun
    · exact absurd report h.policy
    · simpa only [Machine.perform, he] using h.advance
  | loadFrame c p =>
    rcases loadFrame_cases c p u with ⟨_, _, e⟩ | ⟨_, e⟩ <;> simp only [Machine.perform, e]
    · exact { h with }
    · exact h.raise nofun
  | write c t =>
    rcases busWrite_cases c t d u with ⟨_, e⟩ | ⟨_, e⟩ <;> simp only [Machine.perform, e]
    · exact { h with }
    · exact (h.logAccess ..).failWith nofun
  | read n t =>
    rcases busRead_cases n t d u with ⟨_, e⟩ | ⟨_, e⟩ <;> simp only [Machine.perform, e]
    · exact { h with }
    · exact (h.logAccess ..).failWith nofun
  | decodeBuffer n t => exact h.decodeInto ..
  | decodeOperand raw k => exact h.decodeInto ..
  | respond f => exact h.respondWith (by simp [statusOk])
  | raise =>
    cases hf : u.failed with
    | none => simpa only [Machine.perform, hf] using h.advance
    | some f => simpa only [Machine.perform, hf] using h.raise (h.failed f hf)
  | acceptPure => exact h.advance
  | waitReady | setSession | compute => exact { h with }

theorem State.Patient.abandon (h : u.Patient) (a : Act) : (abandon a u).Patient := by
  cases a with
  | write | read => exact h.logAccess ..
  | _ => exact h

theorem State.Patient.runAct (h : u.Patient) (a : Act) : (runAct a u).Patient := by
  rcases runAct_cases a u with ⟨_, e⟩ | ⟨_, e⟩ <;> rw [e]
  · exact (h.tick.abandon a).onReset
  · exact h.tick.perform a _

end

/-- Under the other policies no operation answers a TIMING_VIOLATION. -/
theorem exec_resp_ne_timingViolation {i : Instr} {s t : State} (hp : s.params.policy ≠ .report)
    (h : exec i s = .next t) : t.resp.head? ≠ some 0x83 := by
  obtain ⟨_, ended⟩ := exec_ended h
  have begun : (s.begin i).Patient := ⟨hp, nofun, nofun⟩
  rw [exec_eq_runLines] at h
  cases h
  exact (runLines_induction (P := State.Patient) _ _ (fun _ _ a _ _ hu => hu.runAct a) begun).answer ended.phase

/-! ### Every bus access waits for the deadline in force (R174) -/

/-- t records the accesses of s, and after them only accesses that waited for the deadline they found. -/
def State.logsInTime (s t : State) : Prop := ∃ new, t.busLog = s.busLog ++ new ∧ ∀ b ∈ new, b.deadline ≤ b.time

theorem State.logsInTime_of_same {s t : State} (h : t.busLog = s.busLog) : s.logsInTime t := ⟨[], by simpa, nofun⟩

theorem State.logsInTime_of_access {s t : State} {b : BusAccess} (h : t.busLog = s.busLog ++ [b])
    (hb : b.deadline ≤ b.time) : s.logsInTime t := ⟨[b], h, by simpa⟩

theorem State.logsInTime_trans {s t u : State} (h : s.logsInTime t) (h' : t.logsInTime u) : s.logsInTime u := by
  obtain ⟨new, log, inTime⟩ := h
  obtain ⟨new', log', inTime'⟩ := h'
  refine ⟨new ++ new', by rw [log', log, List.append_assoc], fun b hb => ?_⟩
  exact (List.mem_append.mp hb).elim (inTime b) (inTime' b)

/-- The micro-steps that access the bus (20_memory.md R54). -/
def Act.accesses : Act → Bool
  | .write _ _ => true
  | .read _ _ => true
  | _ => false

/-- The other micro-steps leave the bus record as it is. -/
theorem perform_busLog {a : Act} (h : a.accesses = false) (d : Draw) (u : State) :
    (perform a d u).busLog = u.busLog := by
  cases a with
  | write | read => cases h
  | accept needs allowed e =>
    rcases acceptChecks_cases needs allowed e u with
      ⟨_, he⟩ | ⟨_, ⟨_, ⟨_, he⟩ | ⟨_, he⟩⟩ | ⟨_, ⟨_, _, he⟩ | ⟨_, he⟩⟩⟩ <;> simp [perform, he, State.raise]
  | loadFrame c p => rcases loadFrame_cases c p u with ⟨_, _, e⟩ | ⟨_, e⟩ <;> simp [perform, e, State.raise]
  | decodeBuffer n t => rcases decodeInto_cases u.rxbuf n t u with ⟨_, _, e⟩ | ⟨_, e⟩ <;> simp [perform, e]
  | decodeOperand raw k => rcases decodeInto_cases raw k 0 u with ⟨_, _, e⟩ | ⟨_, e⟩ <;> simp [perform, e]
  | raise => cases hf : u.failed <;> simp [perform, hf, State.raise]
  | acceptPure | waitReady | setSession | compute | respond => rfl

/-- A micro-step that accesses the bus does so once, with the deadline and the time it finds. -/
theorem perform_logsInTime {a : Act} {u : State} (d : Draw) (due : a.accesses = true → u.readyAt ≤ u.now) :
    u.logsInTime (perform a d u) := by
  cases a with
  | write c t =>
    rcases busWrite_cases c t d u with ⟨_, e⟩ | ⟨_, e⟩ <;> rw [perform, e] <;>
      exact State.logsInTime_of_access rfl (due rfl)
  | read n t =>
    rcases busRead_cases n t d u with ⟨_, e⟩ | ⟨_, e⟩ <;> rw [perform, e] <;>
      exact State.logsInTime_of_access rfl (due rfl)
  | _ => exact State.logsInTime_of_same (perform_busLog rfl d u)

/-- An access that RESET cuts had waited too. -/
theorem abandon_logsInTime {a : Act} {u : State} (due : a.accesses = true → u.readyAt ≤ u.now) :
    u.logsInTime (abandon a u) := by
  cases a with
  | write | read => exact State.logsInTime_of_access rfl (due rfl)
  | _ => exact State.logsInTime_of_same rfl

theorem runAct_logsInTime {a : Act} {u : State} (due : a.accesses = true → u.readyAt ≤ u.now) :
    u.logsInTime (runAct a u) := by
  have dueAfterTick : a.accesses = true → u.tick.readyAt ≤ u.tick.now := fun ha => Nat.le_add_right_of_le (due ha)
  have ticked : u.logsInTime u.tick := State.logsInTime_of_same rfl
  rcases runAct_cases a u with ⟨_, e⟩ | ⟨_, e⟩ <;> rw [e]
  · exact State.logsInTime_trans ticked
      (State.logsInTime_trans (abandon_logsInTime dueAfterTick) (State.logsInTime_of_same rfl))
  · exact State.logsInTime_trans ticked (perform_logsInTime _ dueAfterTick)

section
variable {i : Instr} {s u : State} {g : Stage} {new : List BusAccess}

/-- A line of a disciplined rule that accesses the bus stands after a WAIT. -/
theorem Tracks.due {l : Line} {rest : List Line} (h : Tracks i s g new u) (hr : RuleOk i g (l :: rest))
    (ha : l.act.accesses = true) : u.readyAt ≤ u.now := by
  cases hr with
  | write _ hs | read hs => exact h.settled hs
  | _ => cases ha

/-- The accesses of a disciplined rule are in time, whatever the length of its payloads. -/
theorem Tracks.runLines_logsInTime {lines : List Line} (h : Tracks i s g new u) (hr : RuleOk i g lines) :
    u.logsInTime (runLines lines u) := by
  induction lines generalizing g new u with
  | nil => cases hr
  | cons l rest ih =>
    have first : u.logsInTime (runAct l.act u) := runAct_logsInTime (h.due hr)
    rw [runLines_cons]
    cases h.line_outcome hr with
    | ended ended =>
      rw [afterLine_of_idle _ _ ended.phase]
      exact first
    | failed failing he =>
      rw [afterLine_of_failed _ _ failing.phase failing.failed]
      have same := (failing.runActs_ended he).busLog.trans failing.busLog.symm
      exact State.logsInTime_trans first (State.logsInTime_of_same same)
    | goesOn hr' tracks =>
      rw [afterLine_of_ok _ _ tracks.phase tracks.failed]
      exact State.logsInTime_trans first (ih tracks hr')

end

theorem exec_logsInTime {i : Instr} {s t : State} (h : exec i s = .next t) : s.logsInTime t := by
  rw [exec_eq_runLines] at h
  cases h
  exact (Tracks.begin i s).runLines_logsInTime (ruleOfInstr_ok i s.params)

/-- Settles O34: under REPORT the last check of ACCEPT, elsewhere no such check but the WAIT before every access. -/
theorem timingViolations : Obligations.TimingViolations := by
  refine ⟨fun s i hc codes session report early hq => ?_, fun s t i hp h => ?_⟩
  · cases acceptOutcome hc hq with
    | unsupported absent => exact absurd codes absent
    | alreadyRunning _ notAllowed | wrongState _ notAllowed => simp [session] at notAllowed
    | tooEarly _ _ _ _ away => exact away
    | passes _ _ due => exact absurd (due report) early.not_ge
  · exact ⟨exec_resp_ne_timingViolation hp h, exec_logsInTime h⟩

end Sys2Proof.Machine
end

section
/-! RESET (70_reset_and_hazards.md R190 to R192) at construction, on an idle block and inside an operation, and the end
of a host program's run (R201). -/

namespace Sys2Proof.Machine

/-! ### RESET's values (R190) -/

/-- RESET of a block that has the parameters and the taken responses of s. -/
theorem State.resetsTo_onReset {s u : State} (hp : u.params = s.params) (ht : u.taken = s.taken) :
    s.resetsTo u.onReset :=
  ⟨rfl, rfl, rfl, rfl, rfl, rfl, rfl, hp, ht⟩

/-- A freshly constructed block: its buffers hold free Bytes within the bounds of R29. -/
theorem State.initial_atBoundary (p : Params) : (State.initial p).AtBoundary where
  phase := rfl
  stepIndex := rfl
  noLocals := ⟨rfl, rfl, rfl⟩
  session := by simp [State.initial]
  txbuf := List.length_take_le _ _
  rxbuf := List.length_take_le _ _
  resp := .inl rfl
  taken := nofun
  busLog := nofun

/-- Settles O41: the state after reset is a freshly constructed one. -/
theorem resetAtBoundary : Obligations.ResetAtBoundary := State.initial_atBoundary Config.instanceParams

/-- Settles O40: at construction RESET's values stand in `State.initial`, and each of the three moves of an idle block
at which RESET falls ends in `onReset`. -/
theorem resetEvent : Obligations.ResetEvent := by
  refine ⟨fun p => ⟨rfl, rfl, rfl, rfl, rfl, rfl, rfl, rfl, rfl⟩, fun s more hp hi => ?_, fun s hp hr hi hd => ?_,
    fun s op rest more e hp hr hi he hd => ?_⟩
  · have resets : step s = .next s.dropInput.onReset := by simp only [step, hp, hi, resetIdle]
    exact ⟨_, resets, State.resetsTo_onReset rfl rfl, rfl, rfl, by simp [hi]⟩
  · have resets : step s = .next s.tick.onReset := by simp only [step, hp, hr, hi, waitForRequest, hd, if_true]
    exact ⟨_, resets, State.resetsTo_onReset rfl rfl, rfl, rfl, hi⟩
  · have resets : step s = .next s.dropInput.tick.onReset := by
      simp only [step, hp, hr, hi, he, refuseRequest, State.drawAt_dropInput, hd, if_true]
    exact ⟨_, resets, State.resetsTo_onReset rfl rfl, rfl, rfl, by simp [hi]⟩

/-! ### The inputs of an operation -/

/-- The effect of a micro-step takes no input. -/
theorem perform_inputs (a : Act) (d : Draw) (u : State) : (perform a d u).inputs = u.inputs := by
  cases a with
  | accept needs allowed e =>
    rcases acceptChecks_cases needs allowed e u with
      ⟨_, h⟩ | ⟨_, ⟨_, ⟨_, h⟩ | ⟨_, h⟩⟩ | ⟨_, ⟨_, _, h⟩ | ⟨_, h⟩⟩⟩ <;> simp [perform, h, State.raise]
  | loadFrame c p => rcases loadFrame_cases c p u with ⟨_, _, h⟩ | ⟨_, h⟩ <;> simp [perform, h, State.raise]
  | write c t => rcases busWrite_cases c t d u with ⟨_, h⟩ | ⟨_, h⟩ <;> simp [perform, h]
  | read n t => rcases busRead_cases n t d u with ⟨_, h⟩ | ⟨_, h⟩ <;> simp [perform, h]
  | decodeBuffer n t => rcases decodeInto_cases u.rxbuf n t u with ⟨_, _, h⟩ | ⟨_, h⟩ <;> simp [perform, h]
  | decodeOperand raw k => rcases decodeInto_cases raw k 0 u with ⟨_, _, h⟩ | ⟨_, h⟩ <;> simp [perform, h]
  | raise => cases h : u.failed <;> simp [perform, h, State.raise]
  | acceptPure | waitReady | setSession | compute | respond => rfl

/-- A cut bus access changes the bus record only, by at most one entry (R192). -/
theorem abandon_cases (a : Act) (u : State) :
    abandon a u = u ∨ ∃ k n bytes, abandon a u = u.logAccess k n bytes .abandoned := by
  cases a with
  | write | read => exact .inr ⟨_, _, _, rfl⟩
  | _ => exact .inl rfl

theorem runAct_inputs (a : Act) (u : State) : (runAct a u).inputs = u.inputs := by
  rcases runAct_cases a u with ⟨_, e⟩ | ⟨_, e⟩ <;> rw [e]
  · rcases abandon_cases a u.tick with h | ⟨_, _, _, h⟩ <;> simp [h]
  · exact perform_inputs a _ u.tick

/-- An operation takes no input. -/
theorem exec_inputs {i : Instr} {s t : State} (h : exec i s = .next t) : t.inputs = s.inputs := by
  rw [exec_eq_runLines] at h
  cases h
  exact runLines_induction (P := fun u => u.inputs = s.inputs) _ _
    (fun _ _ a _ u hu => (runAct_inputs a u).trans hu) rfl

/-! ### RESET inside an operation (R192) -/

/-- Micro-steps after the first k of them. -/
theorem resumeFor_add {k : Nat} {a u : State} (h : resumeFor k a = .next u) (n : Nat) :
    resumeFor (k + n) a = resumeFor n u := by
  induction k generalizing a with
  | zero =>
    cases h
    rw [Nat.zero_add]
  | succ k ih =>
    rw [Nat.add_right_comm]
    cases hp : a.phase with
    | idle =>
      rw [resumeFor_idle hp] at h ⊢
      cases h
      exact (resumeFor_idle hp n).symm
    | exec =>
      cases hr : resume a with
      | next b =>
        rw [resumeFor_succ hp hr] at h ⊢
        exact ih h
      | fault f => simp [resumeFor, hp, hr] at h
      | refused r => simp [resumeFor, hp, hr] at h

/-- An operation runs from any of its states to the end that `exec` gives it. -/
theorem resumeFor_to_end {i : Instr} {s u : State} {k : Nat} (h : resumeFor k (s.begin i) = .next u) :
    ∃ n t, exec i s = .next t ∧ t.phase = .idle ∧ resumeFor n u = .next t := by
  obtain ⟨m, hm⟩ := microStepsMakeOperation i s
  obtain ⟨t, he⟩ : ∃ t, exec i s = .next t := ⟨_, exec_eq_runLines i s⟩
  obtain ⟨_, ended⟩ := exec_ended he
  refine ⟨m, t, he, ended.phase, ?_⟩
  calc resumeFor m u = resumeFor (k + m) (s.begin i) := (resumeFor_add h m).symm
    _ = resumeFor (m + k) (s.begin i) := by rw [Nat.add_comm]
    _ = resumeFor k t := resumeFor_add (hm.trans he) k
    _ = .next t := resumeFor_idle ended.phase k

/-- A state inside an operation at which RESET falls: one micro-step is left, and it is RESET. -/
theorem resumeFor_of_reset {u t : State} {n : Nat} (hu : u.phase = .exec) (hd : (u.drawAt 0).reset = true)
    (h : resumeFor n u = .next t) (ht : t.phase = .idle) : ∃ a, t = (abandon a u.tick).onReset := by
  induction n with
  | zero =>
    cases h
    simp [hu] at ht
  | succ n ih =>
    cases ha : u.currentAct with
    | none =>
      have stays : resume u = .next u := by simp [resume, ha]
      exact ih (resumeFor_succ hu stays n ▸ h)
    | some a =>
      cases hr : readsUnwritten a u with
      | true => simp [resumeFor, hu, resume, ha, hr] at h
      | false =>
        rw [resumeFor_succ hu (resume_of_currentAct ha hr), runAct_of_reset hd, resumeFor_idle rfl] at h
        cases h
        exact ⟨a, rfl⟩

/-- Settles O42: the operation goes on from u to the end that `exec` gives it, and RESET is that end. -/
theorem resetAbandonsOperation : Obligations.ResetAbandonsOperation := by
  intro i s u k hk hu hd
  obtain ⟨n, t, he, ht, hn⟩ := resumeFor_to_end hk
  obtain ⟨_, ended⟩ := exec_ended he
  have inputs := exec_inputs he
  obtain ⟨a, rfl⟩ := resumeFor_of_reset hu hd hn ht
  refine ⟨_, he, State.resetsTo_onReset ended.params ended.taken, ?_, inputs, ?_⟩
  · rcases abandon_cases a u.tick with h | ⟨_, _, _, h⟩ <;> simp [h]
  · rcases abandon_cases a u.tick with h | ⟨_, _, _, h⟩ <;> rw [h]
    · exact .inl rfl
    · exact .inr ⟨_, rfl, rfl⟩

/-! ### The end of a run (R201) -/

/-- The steps that an idle block's run still has: two for each input, and one for a pending response. -/
def State.stepsLeft (s : State) : Nat := 2 * s.inputs.length + if s.resp = [] then 0 else 1

theorem State.stepsLeft_le_runLength (s : State) : s.stepsLeft ≤ s.runLength := by
  unfold State.stepsLeft State.runLength
  split <;> omega

/-- A move that uses up an input leaves fewer steps, whatever response it leaves. -/
theorem State.stepsLeft_lt_of_input {s t : State} {a : Input} {more : List Input} (hs : s.inputs = a :: more)
    (ht : t.inputs = s.inputs.tail) : t.stepsLeft < s.stepsLeft := by
  simp only [State.stepsLeft, ht, hs, List.tail_cons, List.length_cons]
  split <;> omega

/-- t has lost no response and no bus access that s recorded. -/
def State.recordsKept (s t : State) : Prop := s.taken <+: t.taken ∧ s.busLog <+: t.busLog

theorem State.recordsKept_of_same {s t : State} (ht : t.taken = s.taken) (hb : t.busLog = s.busLog) :
    s.recordsKept t :=
  ⟨⟨[], by rw [ht, List.append_nil]⟩, [], by rw [hb, List.append_nil]⟩

theorem State.recordsKept_trans {s t u : State} (h : s.recordsKept t) (h' : t.recordsKept u) : s.recordsKept u :=
  ⟨h.1.trans h'.1, h.2.trans h'.2⟩

/-- A step of an idle block whose run has not ended leads to an idle block with fewer steps left. -/
theorem step_stepsLeft {s : State} (hp : s.phase = .idle) (he : s.runEnded = false) :
    ∃ t, step s = .next t ∧ t.phase = .idle ∧ t.stepsLeft < s.stepsLeft ∧ s.recordsKept t := by
  rcases step_idle_cases hp with ⟨_, hi, e⟩ | ⟨hr, e⟩ | ⟨hr, ⟨_, _, _, i, hi, _, e⟩ | ⟨_, _, _, b, hi, _, e⟩ |
    ⟨ms, _, hi, e⟩ | ⟨hi, _⟩⟩
  · exact ⟨_, e, rfl, State.stepsLeft_lt_of_input hi rfl, State.recordsKept_of_same rfl rfl⟩
  · refine ⟨_, e, hp, ?_, ⟨[s.resp], rfl⟩, [], List.append_nil _⟩
    simp [State.stepsLeft, takeResponse, hr]
  · obtain ⟨t, ht⟩ : ∃ t, exec i s.dropInput = .next t := ⟨_, exec_eq_runLines i _⟩
    obtain ⟨new, ended⟩ := exec_ended ht
    exact ⟨t, e.trans ht, ended.phase, State.stepsLeft_lt_of_input hi (exec_inputs ht),
      ⟨[], by rw [List.append_nil, ended.taken]; rfl⟩, new, ended.busLog.symm⟩
  · refine ⟨_, e, ?_⟩
    rcases refuseRequest_cases b s.dropInput with ⟨_, h⟩ | ⟨_, h⟩ <;> rw [h] <;>
      exact ⟨rfl, State.stepsLeft_lt_of_input hi rfl, State.recordsKept_of_same rfl rfl⟩
  · exact ⟨_, e, hp, State.stepsLeft_lt_of_input hi rfl, State.recordsKept_of_same rfl rfl⟩
  · have ended : s.runEnded = true := s.runEnded_iff.mpr ⟨hp, hr, by simp [hi]⟩
    simp [ended] at he

/-- A run of as many steps as an idle block has left ends. -/
theorem runFor_reaches_end {n : Nat} {s : State} (hp : s.phase = .idle) (hn : s.stepsLeft ≤ n) :
    ∃ t, runFor n s = .next t ∧ t.runEnded = true ∧ s.recordsKept t := by
  induction n generalizing s with
  | zero =>
    cases he : s.runEnded with
    | true => exact ⟨s, rfl, he, State.recordsKept_of_same rfl rfl⟩
    | false =>
      obtain ⟨_, _, _, fewer, _⟩ := step_stepsLeft hp he
      omega
  | succ n ih =>
    cases he : s.runEnded with
    | true => exact ⟨s, runFor_ended he _, he, State.recordsKept_of_same rfl rfl⟩
    | false =>
      obtain ⟨u, hs, idle, fewer, kept⟩ := step_stepsLeft hp he
      obtain ⟨t, run, ended, kept'⟩ := ih idle (by omega)
      exact ⟨t, (runFor_step he hs n).trans run, ended, State.recordsKept_trans kept kept'⟩

/-- Settles O48: the run length bounds the steps left. -/
theorem runEnds : Obligations.RunEnds := by
  intro s hp
  obtain ⟨t, run, ended, taken, log⟩ := runFor_reaches_end hp s.stepsLeft_le_runLength
  obtain ⟨idle, noResponse, noRequest⟩ := t.runEnded_iff.mp ended
  exact ⟨t, run, idle, noResponse, noRequest, taken, log⟩

end Sys2Proof.Machine
end
